-- ==== Sys2Proof/Word.lean ====
section
/-! DEFINITION. The words the ports carry: bytes and their 16-bit and 32-bit groups (R179). -/

namespace Sys2Proof

/-- One byte of any of the part's ports. -/
abbrev Byte := BitVec 8

/-- A two-byte field, most significant byte first on every port (R179). -/
abbrev Word16 := BitVec 16

/-- A four-byte field, most significant byte first on every port (R179). -/
abbrev Word32 := BitVec 32

end Sys2Proof
end

