-- ==== Sys2Proof/Syntax.lean ====
section
/-! DEFINITION. The commands and events of spec/opcode_table.json, one constructor a row. -/

namespace Sys2Proof

/-- A shelf-bus station, 0 to 8: 0 is the shelf controller, d + 1 the controller of degree d (R148). -/
abbrev Station := Fin 9

/-- The index of a record of the context table, 0 to 47 (R19). -/
abbrev CtxIx := Fin 48

/-- A degree, and with it the peer link of that degree, 0 to 7 (R124). -/
abbrev Degree := Fin 8

/-- An output point by its port number: 0 to 7 are E0 to E7, 8 to 15 are D0 to D7 (R136). -/
abbrev PointIx := Fin 16

/-- A slot map by its code: 0 to 7 are I0 to I7, 8 to 15 are O0 to O7 (R179). -/
abbrev MapIx := Fin 16

/-- The first two bytes of a shelf-bus transaction (R149, R180): the marked address byte, with the target in bits 7 to 4
and the direction in bits 3 and 2, and the byte after it, with its marker. -/
structure BusStart where
  /-- the marked address byte -/
  address : Byte
  /-- the byte after it, which names the station -/
  source : Byte
  /-- whether the byte-marker line marked the byte after the address byte -/
  sourceMarked : Bool
  deriving DecidableEq, Repr

/-- One step of the part (spec/opcode_table.json), one constructor a row.

The rows READ_NODE to UNKNOWN_COMMAND are EXECUTIONS by the Command Unit (R152). They carry no operand of their own: the
station and every argument are the bytes held by the intake that the round-robin serves, which a WRITE put there.
The rows PROBE to TEARDOWN, RECEIVE_ERROR and UNKNOWN_FRAME_KIND are TAKINGS by the Protocol Engine (R131): their one
operand is the link, and the frame is the one at the head of that link's receive queue. The other rows carry what
arrives at a port. A row whose occasion does not stand in a state does not occur there and changes nothing. -/
inductive Instr where
  /-- READ_NODE (R175). -/
  | readNode
  /-- READ_CONTEXT (R38). -/
  | readContext
  /-- NEXT_CHANGED (R174). -/
  | nextChanged
  /-- READ_MAP (R17). -/
  | readMap
  /-- READ_POINT (R77). -/
  | readPoint
  /-- READ_LINK (R134). -/
  | readLink
  /-- SET_ATTENTION_MASK (R177). -/
  | setAttentionMask
  /-- CLEAR_STATION (R157). -/
  | clearStation
  /-- CONFIGURE_NODE (R163). -/
  | configureNode
  /-- OPEN_NODE (R164). -/
  | openNode
  /-- CLOSE_NODE (R164). -/
  | closeNode
  /-- SET_TIMING (R165). -/
  | setTiming
  /-- SET_POINT (R54, R166). -/
  | setPoint
  /-- SET_LOCKOUT (R167). -/
  | setLockout
  /-- LINK_CONTROL_ENABLE (R128). -/
  | linkControlEnable
  /-- LINK_CONTROL_DISABLE (R127). -/
  | linkControlDisable
  /-- BAR_SLOTS (R15). -/
  | barSlots
  /-- UNBAR_SLOTS (R16). -/
  | unbarSlots
  /-- FORCE_DARK (R91). -/
  | forceDark
  /-- REREFERENCE_POINT (R169). -/
  | rereferencePoint
  /-- ADOPT_LIGHTPATH (R172). -/
  | adoptLightpath
  /-- BEGIN_LIGHTPATH (R100). -/
  | beginLightpath
  /-- START_RAMP (R101). -/
  | startRamp
  /-- TEARDOWN_LIGHTPATH (R113). -/
  | teardownLightpath
  /-- ABORT_LIGHTPATH (R112). -/
  | abortLightpath
  /-- RELEASE_CONTEXT (R31). -/
  | releaseContext
  /-- UNKNOWN_COMMAND (R161). -/
  | unknownCommand
  /-- WRITE (R150): the bytes of a shelf-bus WRITE. `start` is its two opening bytes, absent where the bytes go on with the
  WRITE already in progress; `data` are the command bytes the station presents, and `endMark` says that the last of
  them carries the END mark. -/
  | write (start : Option BusStart) (data : List Byte) (endMark : Bool)
  /-- READ (R153): `start` is absent where the station goes on with the READ already in progress; `taken` is how many bytes
  of the transfer the station takes now. -/
  | read (start : Option BusStart) (taken : Nat)
  /-- POLL (R154). -/
  | poll (start : BusStart)
  /-- BUS_CLEAR (R156). -/
  | busClear
  /-- RESET (R178): with the strap inputs (R148) and the eight carrier-present inputs (bit d for degree d, R124) as they
  stand at the end of the reset. -/
  | reset (strap : BitVec 3) (carriers : BitVec 8)
  /-- CARRIER_ARRIVAL (R125). -/
  | carrierArrival (link : Degree)
  /-- CARRIER_LOSS (R126). -/
  | carrierLoss (link : Degree)
  /-- FRAME_COMPLETION (R129): the bytes the transceiver delivered after the start of frame, up to the frame's declared
  length or to the point where its reception was cut short. -/
  | frameCompletion (link : Degree) (bytes : List Byte)
  /-- FRAME_DEPARTURE (R132). -/
  | frameDeparture (link : Degree)
  /-- RECEIVE_ERROR (R131). -/
  | receiveError (link : Degree)
  /-- PROBE (R102). -/
  | probe (link : Degree)
  /-- CLEAR (R105). -/
  | clear (link : Degree)
  /-- REFUSE (R106). -/
  | refuse (link : Degree)
  /-- LIGHT (R107). -/
  | light (link : Degree)
  /-- LIT (R108). -/
  | lit (link : Degree)
  /-- ABORT (R109). -/
  | abort (link : Degree)
  /-- TEARDOWN (R114). -/
  | teardown (link : Degree)
  /-- SWEEP_RECORD (R138, R182): the bytes of the record between two frame strobes. -/
  | sweepRecord (bytes : List Byte)
  /-- ACKNOWLEDGEMENT (R144, R182): the bytes of the message. -/
  | acknowledgement (bytes : List Byte)
  /-- ACTUATOR_TIMER_EXPIRY (R146): of the setting outstanding at a point. -/
  | actuatorTimerExpiry (point : PointIx)
  /-- SETTING_TRANSMISSION (R143). -/
  | settingTransmission
  /-- WATCH_TIMER_EXPIRY (R36): of a context. -/
  | watchTimerExpiry (context : CtxIx)
  /-- SWEEP_TIMER_EXPIRY (R66, R84): of a point. -/
  | sweepTimerExpiry (point : PointIx)
  /-- UNKNOWN_FRAME_KIND (R181). -/
  | unknownFrameKind (link : Degree)
  /-- OTHER_TARGET_ADDRESS_BYTE (R149): a marked address byte that names another target. -/
  | otherTargetAddressByte (address : Byte)
  deriving DecidableEq, Repr

end Sys2Proof
end

