-- ==== Sys2Proof/Decode.lean ====
section
/-! DEFINITION. The reading of a table word. No row of spec/opcode_table.json gives bits ("fields" is empty and "fixed" is
absent in all 52): the part has no instruction word. The bytes that do spell commands, frames, records and messages are
read in Machine/Operands.lean and Machine/Formats.lean. -/

namespace Sys2Proof

/-- The command that a word of `nbits` bits spells by the table's bits: none, since no row gives any. -/
def decodeTableWord (_nbits _w : Nat) : Option Instr := none

end Sys2Proof
end

