-- ==== Sys2Proof/Config.lean ====
section
/-! DEFINITION. What the spec leaves open: a free value is an opaque constant, so that no proof can see which one it is. -/

namespace Sys2Proof

/-- DESIGN CHOICE (log entry 4), safe. Whether BEGIN LIGHTPATH refuses, with BAD_ARGUMENT, a flags byte that sets one of
its reserved bits 7 to 1. R179 names the command fields whose reserved bits are refused or ignored and does not name this
byte, and the argument check of R99 does not either. Free: both readings are covered. -/
opaque Config.beginReservedFlagsRefused : Byte → Bool

end Sys2Proof
end

