-- ==== Sys2Proof/Machine/State.lean ====
section
/-! DEFINITION. The state the spec gives the part, as plain data, and the state after reset. -/

namespace Sys2Proof.Machine

/-! ## Slot maps (chapter 1) -/

/-- A slot entry (R1). The context index is present with HELD and LIT alone. -/
inductive Slot where
  /-- available to a run claim -/
  | free
  /-- reserved for a lightpath being commissioned -/
  | held (context : CtxIx)
  /-- carries a lightpath in service -/
  | lit (context : CtxIx)
  /-- not available: barred by the shelf controller, or after an unconfirmed darkening -/
  | barred
  deriving DecidableEq, Repr

/-- A slot run, or a slot range of `width` slots: slots `first` to `first + width - 1` (R4, R14). -/
structure Run where
  first : Nat
  width : Nat
  deriving DecidableEq, Repr

/-! ## Lightpath contexts (chapter 2) -/

/-- The role of a context (R19). -/
inductive Role where
  | head
  | transit
  | tail
  deriving DecidableEq, Repr

/-- The role of a context with its ingress and its egress (R2, R19): one datum, since the role decides what each side is. -/
inductive Sides where
  /-- HEAD: an add port and an egress degree -/
  | head (addPort : Fin 16) (egress : Degree)
  /-- TRANSIT: an ingress degree and an egress degree -/
  | transit (ingress egress : Degree)
  /-- TAIL: an ingress degree and a drop port -/
  | tail (ingress : Degree) (dropPort : Fin 16)
  deriving DecidableEq, Repr

/-- An attenuation (00_scope.md, Conventions): BLOCK, which is no number, or 0 to 250 tenths of a dB. -/
inductive Atten where
  | block
  | tenths (n : Nat)
  deriving DecidableEq, Repr

/-- One record (from, to) of a journal (R20, R62). -/
structure JournalRecord where
  before : Atten
  after : Atten
  deriving DecidableEq, Repr

/-- The causes of R21, R95 and R102, as the cause codes of R179 list them. -/
inductive Cause where
  | nodeClosed
  | duplicateId
  | noContext
  | routeInvalid
  | slotBusy
  | refused
  | abortedRemote
  | abortedLocal
  | timeout
  | guardFault
  | reachShort
  | overReach
  | actuatorReject
  | actuatorTimeout
  | monitorTimeout
  | completed
  | darkUnconfirmed
  deriving DecidableEq, Repr

/-- The sub-state of a RAMPING context (R24). -/
inductive RampSub where
  | queued
  | actuating
  | settling
  | backoff
  deriving DecidableEq, Repr

/-- The mode of a retirement (R24). -/
inductive Mode where
  | gradual
  | hard
  deriving DecidableEq, Repr

/-- Where the current turn of a RETIRING context stands (R24). -/
inductive RetireSub where
  | queued
  | actuating
  | settling
  deriving DecidableEq, Repr

/-- The state of a non-FREE record (R23), with what R20 and R24 give RAMPING and RETIRING alone: the sub-state, the
backoff count, the mode. FREE is the absence of a record. -/
inductive CtxState where
  | probing
  | reserved
  | waitBudget
  | ramping (sub : RampSub) (backoffs : Nat)
  | passed
  | inService
  | retiring (mode : Mode) (sub : RetireSub)
  | ended
  deriving DecidableEq, Repr

/-- The timed-out state of an end detail (R21). -/
inductive TimedState where
  | probing
  | reserved
  | waitBudget
  | passed
  deriving DecidableEq, Repr

/-- An end cause and its detail (R21). -/
structure Ending where
  cause : Cause
  origin : Cause
  originNode : Word16
  hop : Option Nat
  conflictSlot : Option Nat
  timedOut : Option TimedState
  deriving DecidableEq, Repr

/-- A power with the two marks of R42 and R44, in tenths of a dBm. -/
structure Measured where
  power : Int
  floor : Bool
  saturated : Bool
  deriving DecidableEq, Repr

/-- A reference: a power with its floor mark (R20, R70). -/
structure Reference where
  power : Int
  floor : Bool
  deriving DecidableEq, Repr

/-- A non-FREE record of the context table (R19, R20, R21, R24). An absent field is `none`. -/
structure Context where
  state : CtxState
  /-- role, ingress and egress (R19); the output point follows from them -/
  sides : Sides
  adopted : Bool
  /-- ramp on clear: HEAD contexts created by BEGIN LIGHTPATH -/
  rampOnClear : Option Bool
  lightpathId : Word32
  owner : Station
  run : Run
  /-- hop index k: not adopted -/
  hopIndex : Option Nat
  /-- route length L: not adopted -/
  routeLength : Option Nat
  /-- route: HEAD contexts created by BEGIN LIGHTPATH -/
  route : Option (List Byte)
  /-- target T, in tenths of a dBm -/
  target : Int
  /-- window w, in tenths of a dB -/
  window : Nat
  /-- base step: not adopted -/
  baseStep : Option Nat
  /-- step s: not adopted -/
  step : Option Nat
  attenuation : Atten
  /-- the journal, oldest record first -/
  journal : List JournalRecord
  /-- charge in LU: from admission until it is released -/
  charge : Option Nat
  lastMeasured : Option Measured
  reference : Option Reference
  /-- abort pending, with the end cause and detail held with the mark (R75) -/
  abortPending : Option Ending
  /-- end cause and its detail: RETIRING and ENDED (R21) -/
  ending : Option Ending
  /-- remaining time of the watch timer in ms, absent while it is disarmed (R34) -/
  watchTimer : Option Nat
  deriving DecidableEq, Repr

/-! ## Output points (chapters 4 and 5) -/

/-- The service request of a point, with its run while not none (R52). -/
inductive Service where
  | none
  | pending (run : Run)
  | active (run : Run)
  deriving DecidableEq, Repr

/-- The outcome of an actuator setting (R64), and the last service result (R52, R92). -/
inductive SettingOutcome where
  | ok
  | reject
  | timeout
  deriving DecidableEq, Repr

/-- What a point engine holds (R52). -/
structure Point where
  /-- limit, in tenths of a dBm -/
  limit : Int
  /-- density, in tenths of a dBm per slot -/
  density : Int
  /-- guard, in tenths of a dB -/
  guardTol : Nat
  /-- load, in LU -/
  load : Nat
  /-- budget line, head first -/
  line : List CtxIx
  /-- step queue, head first -/
  queue : List CtxIx
  holder : Option CtxIx
  service : Service
  /-- last service result, or absent -/
  lastService : Option SettingOutcome
  /-- settle count, 0 to 2 -/
  settle : Nat
  /-- remaining time of the sweep timer in ms, absent while it is disarmed -/
  sweepTimer : Option Nat
  /-- last sweep sequence, or none -/
  lastSequence : Option Byte
  deriving DecidableEq, Repr

/-! ## Peer links (chapters 6 and 7) -/

/-- The state of a peer link (R124). -/
inductive LinkState where
  | disabled
  | down
  | up
  | draining
  deriving DecidableEq, Repr

/-- The receive status of a completed frame (R129). -/
inductive RxStatus where
  | ok
  | crcBad
  | truncated
  deriving DecidableEq, Repr

/-- A frame in a receive queue (R124): the unit never reads its contents, so it is held as its bytes. -/
structure RxFrame where
  bytes : List Byte
  status : RxStatus
  deriving DecidableEq, Repr

/-- The fields of a frame beyond its sender and its lightpath ID, by its kind (R95). -/
inductive FrameBody where
  | probe (hop first width window step length : Nat) (route : List Byte)
  | clear (hop : Nat)
  | refuse (cause : Cause) (node : Word16) (hop : Nat) (slot : Option Nat)
  | light
  | lit
  | abort (origin : Cause) (node : Word16)
  | teardown
  deriving DecidableEq, Repr

/-- A frame that the part composes or has found well formed (R95). -/
structure Frame where
  sender : Word16
  lightpathId : Word32
  body : FrameBody
  deriving DecidableEq, Repr

/-- What a link unit holds (R124). -/
structure Link where
  state : LinkState
  /-- the carrier-present input as the unit follows it -/
  carrier : Bool
  /-- receive queue, head first -/
  rx : List RxFrame
  /-- transmit queue, head first; the head of a queue that is not empty is in transmission (R132) -/
  tx : List Frame
  overrun : Bool
  rxErrors : Nat
  overruns : Nat
  malformed : Nat
  stray : Nat
  txDrops : Nat
  deriving DecidableEq, Repr

/-! ## Actuator Port (chapter 8) -/

/-- The source side of a ROUTE SET (R142). -/
inductive Source where
  | addPort (n : Fin 16)
  | ingress (d : Degree)
  | dropPort (n : Fin 16)
  deriving DecidableEq, Repr

/-- A setting's kind with its further content (R142). -/
inductive SettingBody where
  | routeSet (side : Source) (attenuation : Nat)
  | attenSet (attenuation : Nat)
  | block
  deriving DecidableEq, Repr

/-- A setting placed for transmission to the drivers, with its tag (R142, R143). -/
structure Setting where
  tag : Byte
  point : PointIx
  run : Run
  body : SettingBody
  deriving DecidableEq, Repr

/-- A setting's kind, as an outstanding entry holds it (R141). -/
inductive SettingKind where
  | routeSet
  | attenSet
  | block
  deriving DecidableEq, Repr

/-- An entry of the outstanding table (R141); its point is the place it stands at, at most one entry a point. -/
structure Outstanding where
  tag : Byte
  kind : SettingKind
  /-- remaining time of the actuator timer, in ms -/
  timer : Nat
  deriving DecidableEq, Repr

/-! ## Shelf bus (chapter 9) -/

/-- A command in an intake (R150): its first byte, the bytes stored after it, and the two marks. -/
structure Command where
  first : Byte
  rest : List Byte
  overlength : Bool
  truncated : Bool
  deriving DecidableEq, Repr

/-- A station's intake (R150). -/
inductive Intake where
  | empty
  | filling (command : Command)
  | full (command : Command)
  deriving DecidableEq, Repr

/-- The shelf-bus transaction the part is in (R149 to R153). -/
inductive Bus where
  /-- none, or one of another target, which the part ignores -/
  | idle
  /-- a transaction the part handshakes and discards (R149) -/
  | discarding
  /-- a WRITE of a station, not held -/
  | write (station : Station)
  /-- a WRITE whose first command byte is held (R151): the byte, and whether it carries the END mark -/
  | held (station : Station) (byte : Byte) (endMark : Bool)
  /-- a READ of a station with the bytes of its transfer not yet delivered (R153) -/
  | read (station : Station) (rest : List Byte)
  deriving DecidableEq, Repr

/-! ## Node configuration (chapter 10) -/

/-- The timing table, in ms (R35). -/
structure Timing where
  probeHop : Nat
  reserveHold : Nat
  lightHop : Nat
  litHop : Nat
  budgetWait : Nat
  actuatorWait : Nat
  sweepWait : Nat
  deriving DecidableEq, Repr

/-- The five node alert flags (R160, R176). -/
structure Alerts where
  overrun : Bool
  linkDown : Bool
  monitor : Bool
  actuator : Bool
  darkUnconfirmed : Bool
  deriving DecidableEq, Repr

/-! ## What the partners see -/

/-- Bytes the part has put on one of its ports. -/
inductive Output where
  /-- a byte of a READ's transfer, with its END mark (R153) -/
  | readByte (station : Station) (byte : Byte) (endMark : Bool)
  /-- the attention byte of a POLL, which carries the END mark (R154) -/
  | pollByte (station : Station) (byte : Byte)
  /-- the bytes of a frame that has left a link in full, from its kind to its check (R132, R181) -/
  | frame (link : Degree) (bytes : List Byte)
  /-- the bytes of a setting's message, sent in full to the drivers (R143, R182) -/
  | setting (bytes : List Byte)
  deriving DecidableEq, Repr

/-- The ways a step could stop the machine: none. No rule of the spec stops the part, and no meaning answers a fault. -/
inductive Fault where
  deriving DecidableEq, Repr

/-- The ways a command could have no meaning. -/
inductive Refusal where
  /-- Raised by exec's arm of a row that has no meaning yet. Safe: the machine stops where the hardware goes on. -/
  | notModelled (mnemonic : String)
  deriving DecidableEq, Repr

/-- The state of the part, every block's, with the queue of the commands that wait. -/
structure State where
  /-- the sixteen slot maps of 384 entries, by map code (R1) -/
  maps : Vector (Vector Slot 384) 16
  /-- the context table; FREE is `none` (R19) -/
  contexts : Vector (Option Context) 48
  /-- the ended list, oldest ending first (R30) -/
  endedList : List CtxIx
  /-- the point engines, by port number (R52) -/
  points : Vector Point 16
  /-- the link units, by degree (R124) -/
  links : Vector Link 8
  /-- sweep discard count (R137) -/
  sweepDiscards : Nat
  /-- outstanding table, by point (R141) -/
  outstanding : Vector (Option Outstanding) 16
  /-- next tag value (R141) -/
  nextTag : Byte
  /-- unmatched-acknowledgement count (R141) -/
  unmatchedAcks : Nat
  /-- settings placed for transmission and not yet begun, in the order placed (R143) -/
  toSend : List Setting
  /-- the setting being sent (R143, R146) -/
  sending : Option Setting
  /-- the strap value sampled at the end of the last reset (R148) -/
  strap : BitVec 3
  /-- the shelf-bus transaction the part is in (R149) -/
  bus : Bus
  /-- the intakes, by station (R150) -/
  intakes : Vector Intake 9
  /-- the reply holders, by station (R153) -/
  holders : Vector (Option (List Byte)) 9
  /-- the attention masks, by station, bit positions as in R180 (R155) -/
  masks : Vector (BitVec 4) 9
  /-- the changed sets, by station: the indices present (R32) -/
  changed : Vector (Vector Bool 48) 9
  /-- the lockout set: the stations present (R158) -/
  lockout : Vector Bool 9
  /-- node ID (R160) -/
  nodeId : Word16
  /-- node state: OPEN or CLOSED (R160) -/
  nodeOpen : Bool
  /-- timing table (R35, R160) -/
  timing : Timing
  /-- alert flags (R160) -/
  alerts : Alerts
  /-- last-served station (R152, R160) -/
  lastServed : Station
  /-- the MODEL's own: what the part has put on its ports, oldest first -/
  outputs : List Output
  /-- the MODEL's own: the commands and events that wait, first in, first out -/
  pending : List Instr
  deriving DecidableEq, Repr

/-- A point engine after reset (R52, R78). -/
def Point.reset : Point where
  limit := 200
  density := -70
  guardTol := 5
  load := 0
  line := []
  queue := []
  holder := none
  service := .none
  lastService := none
  settle := 0
  sweepTimer := none
  lastSequence := none

/-- A link unit after reset, with the carrier as its input stands (R124, R135). -/
def Link.reset (carrier : Bool) : Link where
  state := .disabled
  carrier := carrier
  rx := []
  tx := []
  overrun := false
  rxErrors := 0
  overruns := 0
  malformed := 0
  stray := 0
  txDrops := 0

/-- The timing table after reset (R35). -/
def Timing.reset : Timing where
  probeHop := 500
  reserveHold := 60000
  lightHop := 120000
  litHop := 120000
  budgetWait := 300000
  actuatorWait := 250
  sweepWait := 2000

/-- The alert flags, all clear (R160, R175). -/
def Alerts.clear : Alerts := ⟨false, false, false, false, false⟩

/-- The machine right after reset (R18, R39, R78, R123, R135, R147, R159, R160).

DESIGN CHOICE, unsafe (log entries 1 and 2): the strap inputs read 1, so that the strap address is 9, and every carrier-present
input reads absent. The spec leaves both to the board. A RESET command samples them from its operands. -/
def State.reset : State where
  maps := Vector.replicate 16 (Vector.replicate 384 .free)
  contexts := Vector.replicate 48 none
  endedList := []
  points := Vector.replicate 16 Point.reset
  links := Vector.replicate 8 (Link.reset false)
  sweepDiscards := 0
  outstanding := Vector.replicate 16 none
  nextTag := 0
  unmatchedAcks := 0
  toSend := []
  sending := none
  strap := 1
  bus := .idle
  intakes := Vector.replicate 9 .empty
  holders := Vector.replicate 9 none
  masks := Vector.replicate 9 0
  changed := Vector.replicate 9 (Vector.replicate 48 false)
  lockout := Vector.replicate 9 false
  nodeId := 0
  nodeOpen := false
  timing := Timing.reset
  alerts := Alerts.clear
  lastServed := 8
  outputs := []
  pending := []

end Sys2Proof.Machine
end

