-- ==== Sys2Proof/Machine/Power.lean ====
section
/-! DEFINITION. Power arithmetic (chapter 3): the Conversion Unit, targets, charges, the step at grant, the judgement and
the guard. All figures are exact integers. -/

namespace Sys2Proof.Machine

/-! ## The Conversion Unit -/

/-- Table U (R41). -/
def unitTable : List Nat := [1000, 1259, 1585, 1995, 2512, 3162, 3981, 5012, 6310, 7943]

/-- Table F (R41). -/
def tenthTable : List Nat := [1000, 1023, 1047, 1072, 1096, 1122, 1148, 1175, 1202, 1230]

/-- The mantissa of step 3 of R41: the product over 1000, to the nearest whole number, a remainder of 500 rounded up. -/
def mantissa (unit tenth : Nat) : Nat := (unitTable.getD unit 0 * tenthTable.getD tenth 0 + 500) / 1000

/-- The forward conversion by its digits, for e = d + 400 (R41). -/
def forwardAt (e : Nat) : Nat := mantissa (e / 10 % 10) (e % 10) * 10 ^ (e / 100)

/-- The forward conversion of a power in tenths of a dBm to LU (R41). -/
def forward (d : Int) : Nat := forwardAt (d + 400).toNat

/-- The largest convertible linear value, that of +25.0 dBm (R41). -/
def maxLinear : Nat := 3162000000

/-- The reverse conversion of a linear sum (R42): the smallest d whose forward conversion is at least the sum. -/
def reverse (sum : Nat) : Measured :=
  if sum < 1000 then ⟨-400, true, false⟩
  else if maxLinear < sum then ⟨250, false, true⟩
  else ⟨(((List.range 651).find? fun e => sum ≤ forwardAt e).getD 650 : Nat) - 400, false, false⟩

/-! ## Slot readings and group power -/

/-- A slot reading as it is taken (R43, R182): FLOOR, or a power in range, with whether it was clamped from above. -/
inductive Reading where
  | floor
  | power (d : Int) (clamped : Bool)
  deriving DecidableEq, Repr

/-- The 16-bit reading of a sweep record brought into range (R43, R182). -/
def readingOf (w : Word16) : Reading :=
  if w = 0x8000#16 then .floor
  else if w.toInt < -400 then .floor
  else if 250 < w.toInt then .power 250 true
  else .power w.toInt false

/-- The linear contribution of a reading (R43). -/
def Reading.linear : Reading → Nat
  | .floor => 0
  | .power d _ => forward d

/-- Whether a reading was clamped to +25.0 dBm (R43). -/
def Reading.clamped : Reading → Bool
  | .floor => false
  | .power _ c => c

/-- The readings of a run, out of the readings of a sweep, slot 0 first (R44). -/
def runReadings (readings : List Word16) (run : Run) : List Reading :=
  ((readings.drop run.first).take run.width).map readingOf

/-- The group power of a run in one sweep (R44). -/
def groupPower (readings : List Word16) (run : Run) : Measured :=
  let rs := runReadings readings run
  let m := reverse (rs.map Reading.linear).sum
  { m with saturated := m.saturated || rs.any Reading.clamped }

/-! ## Target, charge, limit -/

/-- The width-offset table (R45): the offsets of the widths 2 to 16. -/
def widthOffset (width : Nat) : Int :=
  ([30, 48, 60, 70, 78, 85, 90, 95, 100, 104, 108, 111, 115, 118, 120] : List Int).getD (width - 2) 0

/-- An integer clamped to a range. -/
def clampInt (lo hi v : Int) : Int := max lo (min hi v)

/-- A natural number clamped to a range. -/
def clampNat (lo hi v : Nat) : Nat := max lo (min hi v)

/-- The target T of a context (R45). -/
def targetOf (density : Int) (width : Nat) : Int := clampInt (-300) 200 (density + widthOffset width)

/-- The charge of a context (R46). -/
def chargeOf (target : Int) (window : Nat) : Nat := forward (min 250 (target + window))

/-- A charge fits at a point (R47). -/
def fits (p : Point) (charge : Nat) : Bool := p.load + charge ≤ forward p.limit

/-! ## The step at grant and the judgement -/

/-- δ lies within the window, edges included (R48, R49). -/
def inWindow (window : Nat) (delta : Int) : Bool := -(window : Int) ≤ delta && delta ≤ window

/-- What a grant to a RAMPING context does (R48). -/
inductive GrantOutcome where
  | openStep
  | settle
  | fault (cause : Cause)
  | stepTo (attenuation : Nat)
  deriving DecidableEq, Repr

/-- The step at grant for a numeric attenuation `a`, from δ, the window and the step size (R48, rows 2 to 6). -/
def numericGrant (a window step : Nat) (delta : Int) : GrantOutcome :=
  if inWindow window delta then .settle
  else if 0 < delta then
    if a = 0 then .fault .reachShort else .stepTo (a - min step delta.toNat)
  else
    if a = 250 then .fault .overReach else .stepTo (min 250 (a + min step (-delta).toNat))

/-- The step at grant (R48). None stands for a numeric attenuation without a last measured value, which R48 says no grant
finds. -/
def grantOutcome (c : Context) : Option GrantOutcome :=
  match c.attenuation with
  | .block => some .openStep
  | .tenths a => c.lastMeasured.map fun m => numericGrant a c.window (c.step.getD 0) (c.target - m.power)

/-- What a passing measurement does (R49). -/
inductive Judgement where
  | settle
  | fault (cause : Cause)
  | continue
  deriving DecidableEq, Repr

/-- The judgement of δ at the attenuation just set (R49). -/
def judge (a : Atten) (window : Nat) (delta : Int) : Judgement :=
  if inWindow window delta then .settle
  else if 0 < delta && a == .tenths 0 then .fault .reachShort
  else if delta < 0 && a == .tenths 250 then .fault .overReach
  else .continue

/-- The step size after a backoff (R51). -/
def halveStep (step : Nat) : Nat := max 1 (step / 2)

/-- A context's deviation from its reference exceeds the guard (R50). A context without a reference, with a floor-marked
one or without a last measured value takes no part. -/
def deviates (guardTol : Nat) (c : Context) : Bool :=
  match c.reference, c.lastMeasured with
  | some r, some m => !r.floor && guardTol < (m.power - r.power).natAbs
  | _, _ => false

end Sys2Proof.Machine
end

