-- ==== Sys2Proof/Machine/Ops.lean ====
section
/-! DEFINITION. The shared operations over the blocks: the Slot Map Store (chapter 1), the Context Table (chapter 2), the
transmit side of the peer links (chapter 7) and the offer of a setting (chapter 8). -/

namespace Sys2Proof.Machine

/-! ## Collections and counters -/

/-- A vector with one entry replaced. -/
def put {α : Type} {n : Nat} (v : Vector α n) (i : Fin n) (x : α) : Vector α n := v.set i.val x i.isLt

/-- A vector with every entry mapped. -/
def mapAll {α β : Type} {n : Nat} (f : α → β) (v : Vector α n) : Vector β n :=
  ⟨(v.toList.map f).toArray, by simp⟩

/-- A counter's rise by 1: every counter saturates at 65535 (00_scope.md, Counters). -/
def countUp (n : Nat) : Nat := if n < 65535 then n + 1 else n

/-- A counter's rise by `k` (R126: one for each removed frame). -/
def countUpBy : Nat → Nat → Nat
  | 0, n => n
  | k + 1, n => countUpBy k (countUp n)

/-! ## Points, links, records: reading and writing one -/

/-- The point engine of port number `p`. -/
def State.point (s : State) (p : PointIx) : Point := s.points[p]

/-- The state with point `p` changed. -/
def State.modPoint (s : State) (p : PointIx) (f : Point → Point) : State :=
  { s with points := put s.points p (f s.points[p]) }

/-- The link unit of degree `d`. -/
def State.link (s : State) (d : Degree) : Link := s.links[d]

/-- The state with link `d` changed. -/
def State.modLink (s : State) (d : Degree) (f : Link → Link) : State :=
  { s with links := put s.links d (f s.links[d]) }

/-- The record at index `i`; none while it is FREE. -/
def State.context (s : State) (i : CtxIx) : Option Context := s.contexts[i]

/-- The state with the record at index `i` replaced. -/
def State.setContext (s : State) (i : CtxIx) (c : Option Context) : State :=
  { s with contexts := put s.contexts i c }

/-- The state with every non-FREE record changed by `f`. -/
def State.mapContexts (s : State) (f : Context → Context) : State :=
  { s with contexts := mapAll (Option.map f) s.contexts }

/-! ## Roles and sides -/

/-- The role (R2). -/
def Sides.role : Sides → Role
  | .head _ _ => .head
  | .transit _ _ => .transit
  | .tail _ _ => .tail

/-- Egress point E(d) (R136). -/
def egressPoint (d : Degree) : PointIx := ⟨d.val, by omega⟩

/-- Drop point D(d) (R136). -/
def dropPoint (d : Degree) : PointIx := ⟨d.val + 8, by omega⟩

/-- Ingress map I(d) (R179). -/
def ingressMap (d : Degree) : MapIx := ⟨d.val, by omega⟩

/-- Egress map O(d) (R179). -/
def egressMap (d : Degree) : MapIx := ⟨d.val + 8, by omega⟩

/-- The map a point names: O(d) for E(d), I(d) for D(d) (R2, R136). -/
def mapOfPoint (p : PointIx) : MapIx :=
  if p.val < 8 then ⟨(p.val + 8) % 16, by omega⟩ else ⟨p.val - 8, by omega⟩

/-- The output point a context's sides give (R19). -/
def Sides.point : Sides → PointIx
  | .head _ e => egressPoint e
  | .transit _ e => egressPoint e
  | .tail i _ => dropPoint i

/-- The maps a context uses, the ingress map first (R2, R6). -/
def Sides.mapsUsed : Sides → List MapIx
  | .head _ e => [egressMap e]
  | .transit i e => [ingressMap i, egressMap e]
  | .tail i _ => [ingressMap i]

/-- The upstream link (R22). -/
def Sides.upstream : Sides → Option Degree
  | .head _ _ => none
  | .transit i _ => some i
  | .tail i _ => some i

/-- The downstream link (R22). -/
def Sides.downstream : Sides → Option Degree
  | .head _ e => some e
  | .transit _ e => some e
  | .tail _ _ => none

/-- The side a ROUTE SET carries (R63, R142). -/
def Sides.source : Sides → Source
  | .head a _ => .addPort a
  | .transit i _ => .ingress i
  | .tail _ d => .dropPort d

/-- The output point of a context (R19). -/
def Context.point (c : Context) : PointIx := c.sides.point

/-- The record is live (R23). -/
def Context.live (c : Context) : Bool := c.state != .ended

/-- The context has settled and is PASSED or IN_SERVICE (R70, R74). -/
def Context.settled (c : Context) : Bool := c.state == .passed || c.state == .inService

/-! ## The Slot Map Store -/

/-- The run or range covers a slot (R4, R14). -/
def Run.covers (r : Run) (k : Nat) : Bool := r.first ≤ k && k < r.first + r.width

/-- Two runs cover a slot in common (R171). -/
def Run.overlaps (a b : Run) : Bool := max a.first b.first < min (a.first + a.width) (b.first + b.width)

/-- The slots of a run, lowest first. -/
def Run.slots (r : Run) : List Nat := List.range' r.first r.width

/-- A slot run by the conventions: width 2 to 16, first + width at most 384 (R4). -/
def Run.isSlotRun (r : Run) : Bool := 2 ≤ r.width && r.width ≤ 16 && r.first ≤ 383 && r.first + r.width ≤ 384

/-- A slot range: first 0 to 383, count 1 to 384 - first (R14). -/
def Run.isRange (r : Run) : Bool := 1 ≤ r.width && r.first ≤ 383 && r.first + r.width ≤ 384

/-- The entries of a list that starts at slot `k`, with the entries of the run changed by `f`. -/
def paint (f : Slot → Slot) (r : Run) : Nat → List Slot → List Slot
  | _, [] => []
  | k, x :: xs => (if r.covers k then f x else x) :: paint f r (k + 1) xs

theorem length_paint (f : Slot → Slot) (r : Run) (k : Nat) (l : List Slot) : (paint f r k l).length = l.length := by
  induction l generalizing k with
  | nil => rfl
  | cons x xs ih => simp [paint, ih]

/-- A map with the entries of a run changed by `f`. -/
def paintMap (f : Slot → Slot) (r : Run) (m : Vector Slot 384) : Vector Slot 384 :=
  ⟨(paint f r 0 m.toList).toArray, by simp [length_paint]⟩

/-- The state with the entries of a run of one map changed by `f`. -/
def State.changeRun (s : State) (f : Slot → Slot) (r : Run) (m : MapIx) : State :=
  { s with maps := put s.maps m (paintMap f r s.maps[m]) }

/-- The state with every entry of a run on every named map written. -/
def State.writeRun (s : State) (ms : List MapIx) (r : Run) (x : Slot) : State :=
  ms.foldl (fun t m => t.changeRun (fun _ => x) r m) s

/-- The entry of slot `k` of map `m` (R1). A map has no slot above 383; no request reaches one (R4, R14). -/
def State.slotAt (s : State) (m : MapIx) (k : Nat) : Slot := (s.maps[m])[k]?.getD .barred

/-- The conflict report of a run claim (R5, R6): the lowest slot of the run that is not FREE on some named map, and the
first named map, ingress first, on which it is not. None where the claim succeeds. -/
def State.conflict (s : State) (ms : List MapIx) (r : Run) : Option (Nat × MapIx) :=
  r.slots.findSome? fun k => (ms.find? fun m => s.slotAt m k != .free).map fun m => (k, m)

/-- The search for a FREE run on one map (R10): the lowest first slot, or the highest. -/
def State.searchRun (s : State) (m : MapIx) (width : Nat) (highest : Bool) : Option Nat :=
  let starts := List.range (385 - width)
  (if highest then starts.reverse else starts).find? fun f => (s.conflict [m] ⟨f, width⟩).isNone

/-- The entry is HELD or LIT (R14). -/
def Slot.occupied : Slot → Bool
  | .held _ => true
  | .lit _ => true
  | .free => false
  | .barred => false

/-- The occupancy test of a range (R14): the lowest HELD or LIT slot. -/
def State.occupancy (s : State) (m : MapIx) (r : Run) : Option Nat := r.slots.find? fun k => (s.slotAt m k).occupied

/-! ## The Context Table -/

/-- The live context that carries a lightpath ID (R25: there is at most one). -/
def State.findLive (s : State) (id : Word32) : Option (CtxIx × Context) :=
  (List.finRange 48).findSome? fun i =>
    match s.context i with
    | some c => if c.live && c.lightpathId == id then some (i, c) else none
    | none => none

/-- The choice of a record for a creation (R26): the lowest FREE index, else the head of the ended list. -/
def State.chooseRecord (s : State) : Option CtxIx :=
  match (List.finRange 48).find? fun i => (s.context i).isNone with
  | some i => some i
  | none => s.endedList.head?

/-- An index joins the changed set of a station (R32). -/
def markChanged (sets : Vector (Vector Bool 48) 9) (st : Station) (i : CtxIx) : Vector (Vector Bool 48) 9 :=
  put sets st (put sets[st] i true)

/-- Notification of a state change (R32): to the owner's changed set and to station 0's. -/
def State.notify (s : State) (i : CtxIx) (owner : Station) : State :=
  { s with changed := markChanged (markChanged s.changed owner i) 0 i }

/-- The watch timer's value on entry to a state (R34); none where the state has it disarmed. -/
def watchLoad (t : Timing) (c : Context) (st : CtxState) : Option Nat :=
  let k := c.hopIndex.getD 0
  let len := c.routeLength.getD 0
  match st with
  | .probing => some (min 86400000 (t.probeHop * (len - k)))
  | .reserved => some (min 86400000 (t.reserveHold + t.lightHop * k))
  | .waitBudget => some (min 86400000 t.budgetWait)
  | .passed => some (min 86400000 (t.litHop * (len - 1 - k)))
  | .ramping _ _ => none
  | .inService => none
  | .retiring _ _ => none
  | .ended => none

/-- A state change: the record `c` is written with its new state, its watch timer is loaded or disarmed (R34), and the
change is notified (R32). -/
def State.enter (s : State) (i : CtxIx) (c : Context) (st : CtxState) : State :=
  (s.setContext i (some { c with state := st, watchTimer := watchLoad s.timing c st })).notify i c.owner

/-- An index leaves the ended list and every changed set (R28, R31). -/
def State.forget (s : State) (i : CtxIx) : State :=
  { s with
    endedList := s.endedList.erase i
    changed := mapAll (fun set => put set i false) s.changed }

/-- The commitment of a creation (R27, R28): the record is withdrawn if it was ENDED, then written and notified. -/
def State.create (s : State) (i : CtxIx) (c : Context) (first : CtxState) : State := (s.forget i).enter i c first

/-- A charge is subtracted from its point's load (R53). -/
def State.discharge (s : State) (c : Context) : State :=
  match c.charge with
  | some q => s.modPoint c.point fun p => { p with load := p.load - q }
  | none => s

/-- A context enters ENDED and joins the tail of the ended list (R30). It holds no charge, no last measured value, no
reference and no abort mark (R20, R30). -/
def State.endRecord (s : State) (i : CtxIx) (c : Context) (e : Ending) : State :=
  let t := s.enter i
    { c with charge := none, lastMeasured := none, reference := none, abortPending := none, ending := some e } .ended
  { t with endedList := t.endedList ++ [i] }

/-- The end cause and detail of an ending that this node begins (R21): a local abort, an expiry, a ramp fault or a
teardown, with this node as its origin and the context's k as its hop. -/
def State.localEnding (s : State) (c : Context) (cause : Cause) : Ending where
  cause := cause
  origin := cause
  originNode := s.nodeId
  hop := c.hopIndex
  conflictSlot := none
  timedOut := none

/-! ## Offering frames -/

/-- The offer of a frame to a link (R132). -/
def Link.offer (l : Link) (f : Frame) : Link :=
  if l.state = .up ∧ l.tx.length < 8 then { l with tx := l.tx ++ [f] } else { l with txDrops := countUp l.txDrops }

/-- A frame composed or forwarded at this node is offered to a link, with this node as its sender (R95, R132). -/
def State.offer (s : State) (d : Degree) (id : Word32) (body : FrameBody) : State :=
  s.modLink d fun l => l.offer ⟨s.nodeId, id, body⟩

/-- The same, where the context has a neighbour on that side (R22). -/
def State.offerTo (s : State) (d : Option Degree) (id : Word32) (body : FrameBody) : State :=
  match d with
  | some l => s.offer l id body
  | none => s

/-- ABORT to every known neighbour, the upstream one first (R96, R111). -/
def State.offerAborts (s : State) (c : Context) (origin : Cause) (node : Word16) : State :=
  (s.offerTo c.sides.upstream c.lightpathId (.abort origin node)).offerTo c.sides.downstream c.lightpathId
    (.abort origin node)

/-! ## Offering settings -/

/-- A setting is outstanding at a point (R141). -/
def State.isOutstanding (s : State) (p : PointIx) : Bool := (s.outstanding[p]).isSome

/-- Some entry of the outstanding table holds a tag (R143). -/
def State.tagHeld (s : State) (t : Byte) : Bool := s.outstanding.toList.any fun e => e.any fun o => o.tag == t

/-- The first value from `t` on, wrapping from 255 to 0, that is not held, among the first `n` (R143). -/
def firstFreeTag (held : Byte → Bool) : Nat → Byte → Byte
  | 0, t => t
  | n + 1, t => if held t then firstFreeTag held n (t + 1) else t

/-- A setting's kind (R142). -/
def SettingBody.kind : SettingBody → SettingKind
  | .routeSet _ _ => .routeSet
  | .attenSet _ => .attenSet
  | .block => .block

/-- The offer of a setting to the Actuator Port (R143): its tag, the next tag value, its entry with the actuator timer
armed, and its place for transmission. -/
def State.offerSetting (s : State) (p : PointIx) (run : Run) (body : SettingBody) : State :=
  let tag := firstFreeTag s.tagHeld 16 s.nextTag
  { s with
    nextTag := tag + 1
    outstanding := put s.outstanding p (some ⟨tag, body.kind, s.timing.actuatorWait⟩)
    toSend := s.toSend ++ [⟨tag, p, run, body⟩] }

end Sys2Proof.Machine
end

