-- ==== Sys2Proof/Machine/Flags.lean ====
section
/-! DEFINITION. The node alert flags (R176), the attention bytes and the attention line (R154, R155). -/

namespace Sys2Proof.Machine

/-! ## Node alert flags -/

/-- OVERRUN is raised (R130). -/
def State.raiseOverrun (s : State) : State := { s with alerts := { s.alerts with overrun := true } }

/-- LINK_DOWN is raised (R126). -/
def State.raiseLinkDown (s : State) : State := { s with alerts := { s.alerts with linkDown := true } }

/-- MONITOR is raised (R138). -/
def State.raiseMonitor (s : State) : State := { s with alerts := { s.alerts with monitor := true } }

/-- ACTUATOR is raised (R92, R145). -/
def State.raiseActuator (s : State) : State := { s with alerts := { s.alerts with actuator := true } }

/-- DARK_UNCONFIRMED is raised (R88). -/
def State.raiseDarkUnconfirmed (s : State) : State :=
  { s with alerts := { s.alerts with darkUnconfirmed := true } }

/-- Some alert flag is raised (R154). -/
def Alerts.any (a : Alerts) : Bool := a.overrun || a.linkDown || a.monitor || a.actuator || a.darkUnconfirmed

/-! ## Attention -/

/-- The station is in the lockout set; station 0 cannot be (R148, R158). -/
def State.lockedOut (s : State) (st : Station) : Bool := st != 0 && s.lockout[st]

/-- REPLY: the station's reply holder is not empty (R154). -/
def State.replyBit (s : State) (st : Station) : Bool := (s.holders[st]).isSome

/-- CHANGED: the station's changed set is not empty (R154). -/
def State.changedBit (s : State) (st : Station) : Bool := (s.changed[st]).toList.any id

/-- ALERT: station 0 alone, while any alert flag is raised (R154). -/
def State.alertBit (s : State) (st : Station) : Bool := st == 0 && s.alerts.any

/-- A station's four attention bits, REPLY in bit 0, CHANGED in bit 1, LOCKED in bit 2 and ALERT in bit 3 (R154, R180). -/
def State.attentionBits (s : State) (st : Station) : BitVec 4 :=
  BitVec.ofBool (s.alertBit st) ++ BitVec.ofBool (s.lockedOut st) ++ BitVec.ofBool (s.changedBit st) ++
    BitVec.ofBool (s.replyBit st)

/-- A station's attention byte, bits 7 to 4 reserved and 0 (R180). -/
def State.attentionByte (s : State) (st : Station) : Byte := (s.attentionBits st).setWidth 8

/-- The attention line is asserted exactly while some station has a bit set in both its attention byte and its mask
(R155). The pin is derived, as the SBI derives it. -/
def State.attentionLine (s : State) : Bool :=
  (List.finRange 9).any fun st => s.attentionBits st &&& s.masks[st] != 0

end Sys2Proof.Machine
end

