-- ==== Sys2Proof/Machine/PointEngine.lean ====
section
/-! DEFINITION. The point engines (chapters 4 and 5): admission, the ramp lock, forward and retirement turns, measurement,
backoff, settle, ramp faults, the end of darkening, service turns, and what an abort does to a context's place. -/

namespace Sys2Proof.Machine

/-! ## The journal -/

/-- The two oldest records merged into one (R62). -/
def mergeOldest : List JournalRecord → List JournalRecord
  | a :: b :: rest => ⟨a.before, b.after⟩ :: rest
  | l => l

/-- A journal push (R62). -/
def pushJournal (j : List JournalRecord) (r : JournalRecord) : List JournalRecord :=
  (if 16 ≤ j.length then mergeOldest j else j) ++ [r]

/-! ## The lock and the settle count -/

/-- The ramp lock is free: no holder, and the service request is not ACTIVE (R52). -/
def Point.lockFree (p : Point) : Bool :=
  p.holder.isNone && match p.service with
    | .active _ => false
    | .pending _ => true
    | .none => true

/-- The lock is released by its holder. -/
def State.releaseLock (s : State) (p : PointIx) : State := s.modPoint p fun q => { q with holder := none }

/-- The settle count becomes `n` and the sweep timer is armed with sweep_wait (R64, R65, R69, R82). -/
def State.armSettle (s : State) (p : PointIx) (n : Nat) : State :=
  s.modPoint p fun q => { q with settle := n, sweepTimer := some s.timing.sweepWait }

/-- The settle count is at 0 and the sweep timer disarmed (R65, R76). -/
def State.stopCounting (s : State) (p : PointIx) : State :=
  s.modPoint p fun q => { q with settle := 0, sweepTimer := none }

/-! ## Retirement turns -/

/-- The setting that orders an attenuation at a retirement turn (R81). -/
def restoreSetting : Atten → SettingBody
  | .block => .block
  | .tenths n => .attenSet n

/-- A gradual turn of the holder (R81). -/
def State.gradualTurn (s : State) (p : PointIx) (i : CtxIx) : State :=
  match s.context i with
  | some c =>
    let a := (c.journal.getLast?.map JournalRecord.before).getD .block
    (s.setContext i (some { c with
      journal := c.journal.dropLast, attenuation := a, state := .retiring .gradual .actuating })).offerSetting
      p c.run (restoreSetting a)
  | none => s

/-- A hard turn of the holder (R85). -/
def State.hardTurn (s : State) (p : PointIx) (i : CtxIx) : State :=
  match s.context i with
  | some c =>
    (s.setContext i (some { c with
      journal := [], attenuation := .block, state := .retiring .hard .actuating })).offerSetting p c.run .block
  | none => s

/-- The retirement turn of a mode. -/
def State.retireTurn (s : State) (p : PointIx) (i : CtxIx) : Mode → State
  | .gradual => s.gradualTurn p i
  | .hard => s.hardTurn p i

/-- The holder enters RETIRING in a mode, with its end cause written, and its retirement turn begins at once (R72, R75,
R76, R79). -/
def State.retireHolder (s : State) (p : PointIx) (i : CtxIx) (c : Context) (e : Ending) (m : Mode) : State :=
  ((s.stopCounting p).enter i { c with abortPending := none, ending := some e } (.retiring m .actuating)).retireTurn p i m

/-! ## Ramp faults -/

/-- The mode in which a fault retires a context (R72). -/
def faultMode : Cause → Mode
  | .guardFault => .gradual
  | .reachShort => .gradual
  | .overReach => .gradual
  | _ => .hard

/-- A turn that ends in a fault (R72). -/
def State.rampFault (s : State) (p : PointIx) (i : CtxIx) (c : Context) (f : Cause) : State :=
  (s.offerAborts c f s.nodeId).retireHolder p i c (s.localEnding c f) (faultMode f)

/-! ## Settle -/

/-- The reference taken from a last measured value, with its floor mark (R70, R74). -/
def Measured.toReference (m : Measured) : Reference := ⟨m.power, m.floor⟩

/-- The context is one whose reference a settle at `p`, or REREFERENCE POINT, refreshes (R70, R74). -/
def Context.refreshable (c : Context) (p : PointIx) : Bool :=
  c.point == p && c.settled && c.charge.isSome && c.lastMeasured.isSome

/-- A refreshable context takes its last measured value as its reference (R74). -/
def Context.refresh (c : Context) (p : PointIx) : Context :=
  if c.refreshable p then { c with reference := c.lastMeasured.map Measured.toReference } else c

/-- Every refreshable context at a point takes its last measured value as its reference (R70, R74). -/
def State.refreshReferences (s : State) (p : PointIx) : State :=
  s.mapContexts fun c => c.refresh p

/-- The settle of a turn, up to the lock grant that follows it (R70, steps 1 to 4). -/
def State.settleTurn (s : State) (p : PointIx) (i : CtxIx) (c : Context) : State :=
  let t := (s.refreshReferences p).releaseLock p
  let c' := { c with reference := c.lastMeasured.map Measured.toReference }
  match c.sides with
  | .tail d _ =>
    (((t.enter i c' .inService).writeRun c.sides.mapsUsed c.run (.lit i))).offer d c.lightpathId .lit
  | .head _ e => (t.enter i c' .passed).offer e c.lightpathId .light
  | .transit _ e => (t.enter i c' .passed).offer e c.lightpathId .light

/-! ## The lock grant -/

/-- A forward step is sent (R63): the journal push, the attenuation, the setting, ACTUATING. -/
def State.forwardStep (s : State) (p : PointIx) (i : CtxIx) (c : Context) (backoffs : Nat) (a : Nat) : State :=
  (s.setContext i (some { c with
    journal := pushJournal c.journal ⟨c.attenuation, .tenths a⟩
    attenuation := .tenths a
    state := .ramping .actuating backoffs })).offerSetting p c.run
    (match c.attenuation with
      | .block => .routeSet c.sides.source a
      | .tenths _ => .attenSet a)

/-- A granted service request becomes ACTIVE and sends its BLOCK (R92). -/
def State.serviceTurn (s : State) (p : PointIx) (run : Run) : State :=
  (s.modPoint p fun q => { q with service := .active run }).offerSetting p run .block

/-- Grants of a free lock down the step queue (R60, R61): a settle at grant releases the lock again, and the next member
is granted in the same event (R70, step 5). A queue holds only RAMPING and RETIRING contexts (R59); another member, or a
RAMPING one that R48 says no grant finds, is not granted. -/
def State.grantLoop (p : PointIx) : List CtxIx → State → State
  | [], s => s
  | i :: rest, s =>
    match s.context i with
    | none => s
    | some c =>
      let t := s.modPoint p fun q => { q with queue := rest, holder := some i }
      match c.state with
      | .ramping _ n =>
        match grantOutcome c with
        | none => s
        | some .openStep => t.forwardStep p i c n 250
        | some (.stepTo a) => t.forwardStep p i c n a
        | some .settle => State.grantLoop p rest (t.settleTurn p i c)
        | some (.fault f) => t.rampFault p i c f
      | .retiring m _ => t.retireTurn p i m
      | .probing => s
      | .reserved => s
      | .waitBudget => s
      | .passed => s
      | .inService => s
      | .ended => s

/-- The lock grant (R60): a PENDING service request first, else the head of the step queue. -/
def State.grant (s : State) (p : PointIx) : State :=
  if (s.point p).lockFree then
    match (s.point p).service with
    | .pending run => s.serviceTurn p run
    | .active _ => s
    | .none => State.grantLoop p (s.point p).queue s
  else s

/-! ## Admission -/

/-- One admission (R56, step 2): the head `i` of the line, whose members behind it are `rest`. -/
def State.admitOne (s : State) (p : PointIx) (i : CtxIx) (rest : List CtxIx) (c : Context) : State :=
  let q := chargeOf c.target c.window
  (s.modPoint p fun pt => { pt with load := pt.load + q, line := rest, queue := pt.queue ++ [i] }).enter i
    { c with charge := some q, step := c.baseStep } (.ramping .queued 0)

/-- Admissions down the budget line, strictly first in, first out (R56). Every member of a line is in WAIT_BUDGET (R55);
another member ends the attempt. -/
def State.admitLoop (p : PointIx) : List CtxIx → State → State
  | [], s => s
  | i :: rest, s =>
    match s.context i with
    | none => s
    | some c =>
      if c.state = .waitBudget ∧ fits (s.point p) (chargeOf c.target c.window) then
        State.admitLoop p rest (s.admitOne p i rest c)
      else s

/-- An admission attempt, and the lock grant that follows it (R56). -/
def State.attempt (s : State) (p : PointIx) : State := (State.admitLoop p (s.point p).line s).grant p

/-- A context enters WAIT_BUDGET: it joins the tail of its point's line, and an admission attempt follows (R55). -/
def State.joinLine (s : State) (i : CtxIx) (c : Context) : State :=
  ((s.enter i c .waitBudget).modPoint c.point fun q => { q with line := q.line ++ [i] }).attempt c.point

/-! ## The ends of a context -/

/-- A context that never lit is ended at once (R89). -/
def State.endNeverLit (s : State) (i : CtxIx) (c : Context) (e : Ending) : State :=
  let p := c.point
  let leftLine := (s.point p).line.contains i
  let t := s.modPoint p fun q => { q with line := q.line.erase i, queue := q.queue.erase i }
  let t := ((t.discharge c).writeRun c.sides.mapsUsed c.run .free).endRecord i c e
  if leftLine || c.charge.isSome then t.attempt p else t

/-- The TEARDOWN that a HEAD sends downstream at the end of its darkening (R87, step 5; R88, step 7). -/
def State.teardownAtDark (s : State) (c : Context) (completed : Bool) : State :=
  match c.sides, completed with
  | .head _ e, true => s.offer e c.lightpathId .teardown
  | _, _ => s

/-- The holder is dark (R87). -/
def State.dark (s : State) (p : PointIx) (i : CtxIx) (c : Context) : State :=
  match c.ending with
  | some e =>
    let t := ((s.discharge c).releaseLock p).writeRun c.sides.mapsUsed c.run .free
    ((t.endRecord i c e).teardownAtDark c (e.cause == .completed)).attempt p
  | none => s

/-- The holder's darkening ends as DARK_UNCONFIRMED (R88). -/
def State.darkUnconfirmed (s : State) (p : PointIx) (i : CtxIx) (c : Context) : State :=
  match c.ending with
  | some e =>
    let t := ((s.discharge c).releaseLock p).writeRun c.sides.mapsUsed c.run .barred
    ((t.raiseDarkUnconfirmed.endRecord i c { e with cause := .darkUnconfirmed }).teardownAtDark c
      (e.origin == .completed)).attempt p
  | none => s

/-- A context enters RETIRING at the tail of its point's step queue, and a lock grant follows (R79). -/
def State.retireAtTail (s : State) (i : CtxIx) (c : Context) (e : Ending) (m : Mode) : State :=
  ((s.enter i { c with ending := some e } (.retiring m .queued)).modPoint c.point fun q =>
    { q with queue := q.queue ++ [i] }).grant c.point

/-- What an abort does to a live context (R109 table; R75, R76, R89, R90). The frames it sends are sent by its taker. -/
def State.abortEffect (s : State) (i : CtxIx) (c : Context) (e : Ending) : State :=
  match c.state with
  | .probing => s.endNeverLit i c e
  | .reserved => s.endNeverLit i c e
  | .waitBudget => s.endNeverLit i c e
  | .ramping .queued _ =>
    match c.attenuation with
    | .block => s.endNeverLit i c e
    | .tenths _ => s.enter i { c with ending := some e } (.retiring .gradual .queued)
  | .ramping _ _ =>
    if s.isOutstanding c.point then s.setContext i (some { c with abortPending := some e })
    else s.retireHolder c.point i c e .gradual
  | .passed => s.retireAtTail i c e .gradual
  | .inService => s.retireAtTail i c e .gradual
  | .retiring _ _ => s
  | .ended => s

/-- The abort is taken without effect: the context is RETIRING, or it is RAMPING with abort pending set (R75, R80, R110,
R112). -/
def Context.abortIdle (c : Context) : Bool :=
  match c.state with
  | .retiring _ _ => true
  | .ramping _ _ => c.abortPending.isSome
  | _ => false

/-- A local abort (R111): ABORT to every known neighbour, then the effect on the context. -/
def State.localAbort (s : State) (i : CtxIx) (c : Context) (e : Ending) : State :=
  (s.offerAborts c e.origin e.originNode).abortEffect i c e

/-! ## Measurement -/

/-- The guard of a point is violated over the charged contexts other than the holder (R50). -/
def State.guardViolated (s : State) (p : PointIx) (holder : CtxIx) : Bool :=
  (List.finRange 48).any fun j => j != holder &&
    match s.context j with
    | some c => c.point == p && c.charge.isSome && deviates (s.point p).guardTol c
    | none => false

/-- The holder's turn ends, and it joins the tail of the step queue; a lock grant follows (R69, R71, R83). -/
def State.requeue (s : State) (p : PointIx) (i : CtxIx) (c : Context) (st : CtxState) : State :=
  ((s.setContext i (some { c with state := st })).modPoint p fun q =>
    { q with holder := none, queue := q.queue ++ [i] }).grant p

/-- A violating measurement, forward or backoff (R67, R68, R69): the backoff count rises, and the step is undone or the
turn ends in fault GUARD. -/
def State.violation (s : State) (p : PointIx) (i : CtxIx) (c : Context) (backoffs : Nat) : State :=
  if 3 ≤ backoffs + 1 then s.rampFault p i c .guardFault
  else match c.journal.getLast? with
    | some ⟨.tenths a, _⟩ =>
      (s.setContext i (some { c with
        journal := c.journal.dropLast
        attenuation := .tenths a
        step := c.step.map halveStep
        state := .ramping .backoff (backoffs + 1) })).offerSetting p c.run (.attenSet a)
    | some ⟨.block, _⟩ => s.rampFault p i c .guardFault
    | none => s.rampFault p i c .guardFault

/-- The measurement of a forward turn (R67, R49). A charged context has a last measured value at its measurement sweep
(R73). -/
def State.measureForward (s : State) (p : PointIx) (i : CtxIx) (c : Context) (backoffs : Nat) : State :=
  if s.guardViolated p i then s.violation p i c backoffs
  else match c.lastMeasured with
    | none => s
    | some m =>
      match judge c.attenuation c.window (c.target - m.power) with
      | .settle => (s.settleTurn p i c).grant p
      | .fault f => s.rampFault p i c f
      | .continue => s.requeue p i c (.ramping .queued 0)

/-- The measurement of a backoff (R69). -/
def State.measureBackoff (s : State) (p : PointIx) (i : CtxIx) (c : Context) (backoffs : Nat) : State :=
  if s.guardViolated p i then s.violation p i c backoffs else s.requeue p i c (.ramping .queued backoffs)

/-- The holder's counting at an accepted sweep (R65, R83). -/
def State.countSweep (s : State) (p : PointIx) : State :=
  match (s.point p).holder with
  | none => s
  | some i =>
    match s.context i, (s.point p).settle with
    | some c, k + 1 =>
      match c.state with
      | .ramping .settling n => if k = 0 then (s.stopCounting p).measureForward p i c n else s.armSettle p k
      | .ramping .backoff n => if k = 0 then (s.stopCounting p).measureBackoff p i c n else s.armSettle p k
      | .retiring .gradual .settling =>
        if k = 0 then (s.stopCounting p).requeue p i c (.retiring .gradual .queued) else s.armSettle p k
      | _ => s
    | _, _ => s

/-- A charged context's last measured value at an accepted sweep, and the first reference of an adopted one (R73, steps 2
and 3). -/
def Context.measure (c : Context) (p : PointIx) (readings : List Word16) : Context :=
  if c.point == p && c.charge.isSome then
    let m := groupPower readings c.run
    { c with
      lastMeasured := some m
      reference :=
        if c.adopted && c.state == .inService && c.reference.isNone then some m.toReference else c.reference }
  else c

/-- A sweep accepted for a point (R73). -/
def State.acceptSweep (s : State) (p : PointIx) (sequence : Byte) (readings : List Word16) : State :=
  ((s.modPoint p fun q => { q with lastSequence := some sequence }).mapContexts fun c => c.measure p readings).countSweep p

/-! ## Outcomes and expiries -/

/-- The outcome of the ACTIVE service request's BLOCK (R92). -/
def State.serviceOutcome (s : State) (p : PointIx) (o : SettingOutcome) : State :=
  let t := s.modPoint p fun q => { q with service := .none, lastService := some o }
  let t := match o with
    | .ok => t
    | .reject => t.raiseActuator
    | .timeout => t.raiseActuator
  t.grant p

/-- The outcome of a RAMPING holder's setting without abort pending (R64, R69). -/
def State.rampOutcome (s : State) (p : PointIx) (i : CtxIx) (c : Context) (sub : RampSub) (backoffs : Nat) :
    SettingOutcome → State
  | .ok =>
    (s.setContext i (some { c with
      state := .ramping (if sub = .backoff then .backoff else .settling) backoffs })).armSettle p 2
  | .reject => s.rampFault p i c .actuatorReject
  | .timeout => s.rampFault p i c .actuatorTimeout

/-- The outcome of a RAMPING holder's setting with abort pending (R75). -/
def State.abortOutcome (s : State) (p : PointIx) (i : CtxIx) (c : Context) (e : Ending) : SettingOutcome → State
  | .ok => s.retireHolder p i c e .gradual
  | .reject => s.retireHolder p i c e .hard
  | .timeout => s.retireHolder p i c e .hard

/-- The outcome of a gradual turn's setting (R82). -/
def State.gradualOutcome (s : State) (p : PointIx) (i : CtxIx) (c : Context) : SettingOutcome → State
  | .ok =>
    match c.attenuation with
    | .block => s.dark p i c
    | .tenths _ => (s.setContext i (some { c with state := .retiring .gradual .settling })).armSettle p 1
  | .reject => s.hardTurn p i
  | .timeout => s.hardTurn p i

/-- The outcome of a hard turn's BLOCK (R86). -/
def State.hardOutcome (s : State) (p : PointIx) (i : CtxIx) (c : Context) : SettingOutcome → State
  | .ok => s.dark p i c
  | .reject => s.darkUnconfirmed p i c
  | .timeout => s.darkUnconfirmed p i c

/-- The outcome of a point's outstanding setting is delivered to it (R64, R69, R75, R82, R86, R92). -/
def State.deliver (s : State) (p : PointIx) (o : SettingOutcome) : State :=
  match (s.point p).service with
  | .active _ => s.serviceOutcome p o
  | _ =>
    match (s.point p).holder with
    | none => s
    | some i =>
      match s.context i with
      | none => s
      | some c =>
        match c.state with
        | .ramping sub n =>
          match c.abortPending with
          | some e => s.abortOutcome p i c e o
          | none => s.rampOutcome p i c sub n o
        | .retiring .gradual _ => s.gradualOutcome p i c o
        | .retiring .hard _ => s.hardOutcome p i c o
        | _ => s

/-- The sweep timer of the holder's settle expires (R66, R84): its remaining time has reached 0. -/
def State.sweepExpiry (s : State) (p : PointIx) : State :=
  match (s.point p).sweepTimer, (s.point p).holder with
  | some 0, some i =>
    match s.context i with
    | none => s
    | some c =>
      match c.state with
      | .ramping _ _ => s.rampFault p i c .monitorTimeout
      | .retiring _ _ => (s.stopCounting p).hardTurn p i
      | _ => s
  | _, _ => s

end Sys2Proof.Machine
end

