-- ==== Sys2Proof/Machine/Formats.lean ====
section
/-! DEFINITION. The byte layouts of chapter 11: numbers and codes (R179), context blocks and map entries (R180), peer frames
with their check (R181), sweep records and actuator messages (R182). -/

namespace Sys2Proof.Machine

/-! ## Numbers (R179) -/

/-- A 16-bit number, most significant byte first. -/
def bytes16 (w : Word16) : List Byte := [(w >>> 8).setWidth 8, w.setWidth 8]

/-- A 32-bit number, most significant byte first. -/
def bytes32 (w : Word32) : List Byte :=
  [(w >>> 24).setWidth 8, (w >>> 16).setWidth 8, (w >>> 8).setWidth 8, w.setWidth 8]

/-- One byte of a natural number. -/
def byte (n : Nat) : Byte := BitVec.ofNat 8 n

/-- A natural number in two bytes. -/
def nat16 (n : Nat) : List Byte := bytes16 (BitVec.ofNat 16 n)

/-- A natural number in four bytes. -/
def nat32 (n : Nat) : List Byte := bytes32 (BitVec.ofNat 32 n)

/-- A power, a density or a limit: a 16-bit two's-complement count of tenths. -/
def int16 (d : Int) : List Byte := bytes16 (BitVec.ofInt 16 d)

/-- A flag in one byte. -/
def boolByte (b : Bool) : Byte := if b then 1 else 0

/-- An index in one byte. -/
def indexByte {n : Nat} (i : Fin n) : Byte := byte i.val

/-- The 16-bit number of two bytes. -/
def word16 (hi lo : Byte) : Word16 := hi ++ lo

/-- The 32-bit number of four bytes. -/
def word32 (a b c d : Byte) : Word32 := a ++ b ++ c ++ d

/-- The byte at a place of a list; a place past the end is never read (R161, check 3). -/
def byteAt (l : List Byte) (k : Nat) : Byte := l.getD k 0

/-- The 16-bit number at a place of a list. -/
def word16At (l : List Byte) (k : Nat) : Word16 := word16 (byteAt l k) (byteAt l (k + 1))

/-- The 32-bit number at a place of a list. -/
def word32At (l : List Byte) (k : Nat) : Word32 :=
  word32 (byteAt l k) (byteAt l (k + 1)) (byteAt l (k + 2)) (byteAt l (k + 3))

/-- A field of one byte whose item may be absent: all ones while it is (R179). -/
def optByte {α : Type} (f : α → Byte) (o : Option α) : Byte := (o.map f).getD 0xFF

/-- A field of two bytes whose item may be absent. -/
def opt16 {α : Type} (f : α → List Byte) (o : Option α) : List Byte := (o.map f).getD [0xFF, 0xFF]

/-- A field of four bytes whose item may be absent. -/
def opt32 {α : Type} (f : α → List Byte) (o : Option α) : List Byte := (o.map f).getD [0xFF, 0xFF, 0xFF, 0xFF]

/-! ## Codes (R179) -/

/-- Attenuation: 0 to 250 as itself, BLOCK as 255. -/
def Atten.code : Atten → Byte
  | .block => 255
  | .tenths n => byte n

/-- Context state codes of the non-FREE states; FREE is 0. -/
def CtxState.code : CtxState → Byte
  | .probing => 1
  | .reserved => 2
  | .waitBudget => 3
  | .ramping _ _ => 4
  | .passed => 5
  | .inService => 6
  | .retiring _ _ => 7
  | .ended => 8

/-- The timed-out state, by its context state code. -/
def TimedState.code : TimedState → Byte
  | .probing => 1
  | .reserved => 2
  | .waitBudget => 3
  | .passed => 5

/-- Sub-state code: the mode in the high half, the sub-state in the low half; 0 while it is absent (R180). -/
def CtxState.subCode : CtxState → Byte
  | .ramping .queued _ => 0x01
  | .ramping .actuating _ => 0x02
  | .ramping .settling _ => 0x03
  | .ramping .backoff _ => 0x04
  | .retiring .gradual .queued => 0x11
  | .retiring .gradual .actuating => 0x12
  | .retiring .gradual .settling => 0x13
  | .retiring .hard .queued => 0x21
  | .retiring .hard .actuating => 0x22
  | .retiring .hard .settling => 0x23
  | .probing => 0
  | .reserved => 0
  | .waitBudget => 0
  | .passed => 0
  | .inService => 0
  | .ended => 0

/-- The backoff count, present in RAMPING (R20). -/
def CtxState.backoffs : CtxState → Option Nat
  | .ramping _ n => some n
  | .probing => none
  | .reserved => none
  | .waitBudget => none
  | .passed => none
  | .inService => none
  | .retiring _ _ => none
  | .ended => none

/-- Role codes. -/
def Role.code : Role → Byte
  | .head => 1
  | .transit => 2
  | .tail => 3

/-- Cause codes. -/
def Cause.code : Cause → Byte
  | .nodeClosed => 0x01
  | .duplicateId => 0x02
  | .noContext => 0x03
  | .routeInvalid => 0x04
  | .slotBusy => 0x05
  | .refused => 0x10
  | .abortedRemote => 0x11
  | .abortedLocal => 0x12
  | .timeout => 0x13
  | .guardFault => 0x14
  | .reachShort => 0x15
  | .overReach => 0x16
  | .actuatorReject => 0x17
  | .actuatorTimeout => 0x18
  | .monitorTimeout => 0x19
  | .completed => 0x1A
  | .darkUnconfirmed => 0x1B

/-- The refusal cause of a REFUSE frame (R95). -/
def refuseCause (b : Byte) : Option Cause :=
  [Cause.nodeClosed, .duplicateId, .noContext, .routeInvalid, .slotBusy].find? fun c => c.code == b

/-- The cause of origin of an ABORT frame (R95). -/
def abortCause (b : Byte) : Option Cause :=
  [Cause.abortedLocal, .timeout, .guardFault, .reachShort, .overReach, .actuatorReject, .actuatorTimeout,
    .monitorTimeout].find? fun c => c.code == b

/-- Link state codes. -/
def LinkState.code : LinkState → Byte
  | .disabled => 0
  | .down => 1
  | .up => 2
  | .draining => 3

/-! ## The context block (R180) -/

/-- The ingress side in one byte (R19). -/
def Sides.ingressByte : Sides → Byte
  | .head a _ => indexByte a
  | .transit i _ => indexByte i
  | .tail i _ => indexByte i

/-- The egress side in one byte (R19). -/
def Sides.egressByte : Sides → Byte
  | .head _ e => indexByte e
  | .transit _ e => indexByte e
  | .tail _ d => indexByte d

/-- The flags byte of a context block: adopted, ramp on clear, abort pending, charged, last measured present, reference
present, from bit 0 up. -/
def Context.flagByte (c : Context) : Byte :=
  let bit (k : Nat) (b : Bool) : Byte := if b then 1#8 <<< k else 0
  bit 0 c.adopted ||| bit 1 (c.rampOnClear.getD false) ||| bit 2 c.abortPending.isSome ||| bit 3 c.charge.isSome |||
    bit 4 c.lastMeasured.isSome ||| bit 5 c.reference.isSome

/-- The marks byte of a last measured value: floor in bit 0, saturated in bit 1. -/
def Measured.marks (m : Measured) : Byte := (if m.floor then 1 else 0) ||| (if m.saturated then 2 else 0)

/-- The marks byte of a reference, which holds a floor mark alone (R20, R70). -/
def Reference.marks (r : Reference) : Byte := if r.floor then 1 else 0

/-- The context block of a non-FREE record at an index: 48 bytes, the journal, and the route where present (R180). -/
def Context.block (i : CtxIx) (c : Context) : List Byte :=
  [indexByte i, c.state.code, c.state.subCode, c.sides.role.code, c.flagByte] ++
  bytes32 c.lightpathId ++ [indexByte c.owner, c.sides.ingressByte, c.sides.egressByte, indexByte c.point] ++
  nat16 c.run.first ++ [byte c.run.width, optByte byte c.hopIndex, optByte byte c.routeLength] ++
  int16 c.target ++ [byte c.window, optByte byte c.baseStep, optByte byte c.step, c.attenuation.code,
    optByte byte c.state.backoffs] ++
  opt32 nat32 c.charge ++
  opt16 (fun m => int16 m.power) c.lastMeasured ++ [optByte Measured.marks c.lastMeasured] ++
  opt16 (fun r => int16 r.power) c.reference ++ [optByte Reference.marks c.reference] ++
  opt32 nat32 c.watchTimer ++
  [optByte (fun e => e.cause.code) c.ending, optByte (fun e => e.origin.code) c.ending] ++
  opt16 (fun e => bytes16 e.originNode) c.ending ++
  [optByte byte (c.ending.bind Ending.hop)] ++ opt16 nat16 (c.ending.bind Ending.conflictSlot) ++
  [optByte TimedState.code (c.ending.bind Ending.timedOut), byte c.journal.length] ++
  c.journal.flatMap (fun r => [r.before.code, r.after.code]) ++
  c.route.getD []

/-- The context block of the record at an index: index and state alone while it is FREE (R38, R180). -/
def State.contextBlock (s : State) (i : CtxIx) : List Byte :=
  match s.context i with
  | some c => c.block i
  | none => [indexByte i, 0]

/-! ## Map entries (R17, R180) -/

/-- Run-length entries of consecutive slots: slots are joined while they are the same entry (R17). -/
def runLengths : List Slot → List (Slot × Nat)
  | [] => []
  | x :: xs =>
    match runLengths xs with
    | (y, n) :: rest => if x = y then (y, n + 1) :: rest else (x, 1) :: (y, n) :: rest
    | [] => [(x, 1)]

/-- A slot's state code and its context index. -/
def Slot.codes : Slot → Byte × Byte
  | .free => (0, 0xFF)
  | .held i => (1, indexByte i)
  | .lit i => (2, indexByte i)
  | .barred => (3, 0xFF)

/-- A run-length entry in its three bytes (R180). -/
def mapEntryBytes (e : Slot × Nat) : List Byte :=
  [(e.1.codes.1 <<< 6) ||| byte (e.2 / 256 % 2), byte e.2, e.1.codes.2]

/-! ## Peer frames (R181) -/

/-- One bit of the 16-bit cyclic check with generator x¹⁶ + x¹² + x⁵ + 1. -/
def crcShift (r : Word16) : Word16 := if r.msb then (r <<< 1) ^^^ 0x1021#16 else r <<< 1

/-- A byte enters the check register, most significant bit first. -/
def crcByte (r : Word16) (b : Byte) : Word16 :=
  crcShift (crcShift (crcShift (crcShift (crcShift (crcShift (crcShift (crcShift (r ^^^ (b.setWidth 16 <<< 8)))))))))

/-- The frame check over the bytes from the kind to the last field: begun at all ones, sent as its complement. -/
def frameCheck (l : List Byte) : Word16 := ~~~(l.foldl crcByte 0xFFFF#16)

/-- The kind of a frame. -/
def FrameBody.kind : FrameBody → Byte
  | .probe _ _ _ _ _ _ _ => 1
  | .clear _ => 2
  | .refuse _ _ _ _ => 3
  | .light => 4
  | .lit => 5
  | .abort _ _ => 6
  | .teardown => 7

/-- The fields of a frame after its envelope. -/
def FrameBody.fields : FrameBody → List Byte
  | .probe hop first width window step len route =>
    [byte hop] ++ nat16 first ++ [byte width, byte window, byte step, byte len] ++ route
  | .clear hop => [byte hop]
  | .refuse cause node hop slot => [cause.code] ++ bytes16 node ++ [byte hop] ++ opt16 nat16 slot
  | .light => []
  | .lit => []
  | .abort origin node => [origin.code] ++ bytes16 node
  | .teardown => []

/-- A frame as the part composes it: envelope, fields, check (R181). -/
def Frame.encode (f : Frame) : List Byte :=
  let text := [f.body.kind, byte (10 + f.body.fields.length)] ++ bytes16 f.sender ++ bytes32 f.lightpathId ++ f.body.fields
  text ++ bytes16 (frameCheck text)

/-- The receive status of the bytes of a completed frame (R129): TRUNCATED short of the declared length, else OK or
CRC_BAD by the frame check, which is the last two bytes. DEDUCED (log entry 8): a declared length below 3 leaves no byte for the check to
cover, and the status is CRC_BAD; at exactly 3 the last two bytes, taken as the check over the kind alone, are the length byte and the third
byte, and no kind has a check that begins with 3, so that the status is CRC_BAD there too. -/
def receiveStatus (l : List Byte) : RxStatus :=
  match l with
  | _ :: len :: _ =>
    if l.length < len.toNat then .truncated
    else if 3 ≤ len.toNat ∧ frameCheck (l.take (len.toNat - 2)) = word16At l (len.toNat - 2) then .ok
    else .crcBad
  | _ => .truncated

/-- The bytes of a completed frame: none past its declared length is part of it (R129, R181). -/
def frameBytes (l : List Byte) : List Byte :=
  match l with
  | _ :: len :: _ => l.take (max 2 len.toNat)
  | _ => l

/-- The kind byte of a frame of status OK; 0, which is no kind, for a frame without one. -/
def kindByte (l : List Byte) : Byte := byteAt l 0

/-- A byte clamped to 1 to `hi` (R97: a PROBE's window and step). -/
def clampByte (hi : Nat) (b : Byte) : Nat := clampNat 1 hi b.toNat

/-- A PROBE's route is well formed (R97): L entries, degrees 0 to 7 and at the end a drop port 0 to 15. -/
def routeWellFormed (len : Nat) (route : List Byte) : Bool :=
  route.length == len && route.dropLast.all (fun e => decide (e.toNat ≤ 7)) && decide ((route.getLastD 0).toNat ≤ 15)

/-- The fields of a PROBE after its envelope (R95, R97). -/
def parseProbe (f : List Byte) : Option FrameBody :=
  match f with
  | hop :: f1 :: f0 :: width :: window :: step :: len :: route =>
    let run : Run := ⟨(word16 f1 f0).toNat, width.toNat⟩
    if 1 ≤ hop.toNat ∧ hop.toNat < len.toNat ∧ 2 ≤ len.toNat ∧ len.toNat ≤ 32 ∧ run.isSlotRun ∧
        routeWellFormed len.toNat route then
      some (.probe hop.toNat run.first run.width (clampByte 20 window) (clampByte 30 step) len.toNat route)
    else none
  | _ => none

/-- The fields of a REFUSE after its envelope (R95, R97). -/
def parseRefuse (f : List Byte) : Option FrameBody :=
  match f with
  | [cause, n1, n0, hop, s1, s0] =>
    match refuseCause cause with
    | none => none
    | some c =>
      let node := word16 n1 n0
      let slot := word16 s1 s0
      if node ≠ 0 ∧ 1 ≤ hop.toNat ∧ hop.toNat ≤ 31 then
        if c = .slotBusy then
          if slot.toNat ≤ 383 then some (.refuse c node hop.toNat (some slot.toNat)) else none
        else if slot = 0xFFFF#16 then some (.refuse c node hop.toNat none) else none
      else none
  | _ => none

/-- The fields of an ABORT after its envelope (R95, R97). -/
def parseAbort (f : List Byte) : Option FrameBody :=
  match f with
  | [cause, n1, n0] =>
    match abortCause cause with
    | some c => if word16 n1 n0 ≠ 0 then some (.abort c (word16 n1 n0)) else none
    | none => none
  | _ => none

/-- The fields of a CLEAR after its envelope (R95, R97). -/
def parseClear (f : List Byte) : Option FrameBody :=
  match f with
  | [hop] => if 1 ≤ hop.toNat ∧ hop.toNat ≤ 31 then some (.clear hop.toNat) else none
  | _ => none

/-- The fields of a kind after its envelope; none where they are malformed (R97, R181). -/
def parseBody (kind : Byte) (f : List Byte) : Option FrameBody :=
  if kind = 1 then parseProbe f
  else if kind = 2 then parseClear f
  else if kind = 3 then parseRefuse f
  else if kind = 4 then (if f.isEmpty then some .light else none)
  else if kind = 5 then (if f.isEmpty then some .lit else none)
  else if kind = 6 then parseAbort f
  else if kind = 7 then (if f.isEmpty then some .teardown else none)
  else none

/-- A frame of status OK read at a node (R97, R181): none where it is malformed. Its declared length is the number of its
bytes, and the fields run to the check. -/
def parseFrame (own : Word16) (l : List Byte) : Option Frame :=
  match l with
  | kind :: len :: n1 :: n0 :: i3 :: i2 :: i1 :: i0 :: rest =>
    let sender := word16 n1 n0
    if l.length = len.toNat ∧ 2 ≤ rest.length ∧ sender ≠ 0 ∧ sender ≠ own then
      (parseBody kind (rest.take (rest.length - 2))).map fun b => ⟨sender, word32 i3 i2 i1 i0, b⟩
    else none
  | _ => none

/-! ## Sweep records and actuator messages (R182) -/

/-- The readings of a sweep record, two bytes each. -/
def readingWords : List Byte → List Word16
  | hi :: lo :: rest => word16 hi lo :: readingWords rest
  | _ => []

/-- A setting as the message the port sends to the drivers. -/
def Setting.encode (m : Setting) : List Byte :=
  let start (kind : Byte) : List Byte := [m.tag, kind, indexByte m.point] ++ nat16 m.run.first ++ [byte m.run.width]
  match m.body with
  | .block => start 3
  | .attenSet a => start 2 ++ [byte a]
  | .routeSet (.addPort n) a => start 1 ++ [1, indexByte n, byte a]
  | .routeSet (.ingress d) a => start 1 ++ [2, indexByte d, byte a]
  | .routeSet (.dropPort n) a => start 1 ++ [3, indexByte n, byte a]

end Sys2Proof.Machine
end

