-- ==== Sys2Proof/Machine/Operands.lean ====
section
/-! DEFINITION. Where commands come from and how they are answered: the shelf-bus transactions (chapter 9), the execution of
an intake by round-robin, the general checks and the replies (R148 to R153, R161, R180), and the arguments of each command. -/

namespace Sys2Proof.Machine

/-! ## Shelf-bus transactions -/

/-- The part's strap address: 8 + s for a strap value s of 1 to 7, none for 0 (R148). -/
def State.strapAddress (s : State) : Option (BitVec 4) := if s.strap = 0 then none else some (8 + s.strap.setWidth 4)

/-- The target address of an address byte, bits 7 to 4 (R180). -/
def addressTarget (a : Byte) : BitVec 4 := (a >>> 4).setWidth 4

/-- The direction of an address byte, bits 3 and 2 (R180): WRITE 01, READ 10, POLL 11. -/
def addressDirection (a : Byte) : BitVec 2 := (a >>> 2).setWidth 2

/-- The station a source byte names: 0 to 8 (R149). -/
def sourceStation (b : Byte) : Option Station := if h : b.toNat < 9 then some ⟨b.toNat, h⟩ else none

/-- The state with a station's intake replaced. -/
def State.setIntake (s : State) (st : Station) (x : Intake) : State := { s with intakes := put s.intakes st x }

/-- The state with a station's reply holder replaced. -/
def State.setHolder (s : State) (st : Station) (x : Option (List Byte)) : State :=
  { s with holders := put s.holders st x }

/-- A transaction ends early, by a marked address byte (R149, R150, R151, R153): a FILLING intake becomes FULL and marked
truncated, a held WRITE ends, and a READ loses its undelivered rest. -/
def State.endTransaction (s : State) : State :=
  let t := { s with bus := .idle }
  match s.bus with
  | .write st =>
    match s.intakes[st] with
    | .filling c => t.setIntake st (.full { c with truncated := true })
    | .empty => t
    | .full _ => t
  | .held _ _ _ => t
  | .read _ _ => t
  | .discarding => t
  | .idle => t

/-- The reply NONE of a READ that finds its holder empty (R153, R180). -/
def noReply : List Byte := [0xFF]

/-- A transaction begins (R149): the address byte ends the one before, and the source byte decides what the part does. DESIGN CHOICE (log
entry 19): of a discarded READ or POLL the part supplies no byte, and it goes on discarding until the next address byte, the END mark
of a WRITE or the clear line. A READ takes the reply out of its holder (R153); a POLL delivers the attention byte as it stands (R154). -/
def State.startTransaction (s : State) (b : BusStart) : State :=
  let t := s.endTransaction
  if s.strapAddress ≠ some (addressTarget b.address) then t
  else if !b.sourceMarked then { t with bus := .discarding }
  else match sourceStation b.source with
    | none => { t with bus := .discarding }
    | some st =>
      if addressDirection b.address = 1#2 then { t with bus := .write st }
      else if addressDirection b.address = 2#2 then
        { t.setHolder st none with bus := .read st ((t.holders[st]).getD noReply) }
      else if addressDirection b.address = 3#2 then
        { t with outputs := t.outputs ++ [.pollByte st (t.attentionByte st)] }
      else { t with bus := .discarding }

/-- A command of one byte (R150). -/
def Command.start (b : Byte) : Command := ⟨b, [], false, false⟩

/-- A further byte is stored, up to 64 bytes; one beyond the 64th is discarded, and the command is marked overlength
(R150). -/
def Command.store (c : Command) (b : Byte) : Command :=
  if c.rest.length < 63 then { c with rest := c.rest ++ [b] } else { c with overlength := true }

/-- An intake once a byte has been stored: FULL after the byte with the END mark (R150). -/
def intakeWith (c : Command) (endMark : Bool) : Intake := if endMark then .full c else .filling c

/-- A byte of a station's WRITE arrives (R150, R151): it is stored, or, where it finds the intake FULL, held. The END mark
ends the transaction. -/
def State.writeByte (s : State) (st : Station) (b : Byte) (endMark : Bool) : State :=
  let bus : Bus := if endMark then .idle else .write st
  match s.intakes[st] with
  | .empty => { s.setIntake st (intakeWith (Command.start b) endMark) with bus := bus }
  | .filling c => { s.setIntake st (intakeWith (c.store b) endMark) with bus := bus }
  | .full _ => { s with bus := .held st b endMark }

/-- The bytes a station presents in a WRITE (R150, R151). While a byte is held the station cannot present the next one, and
outside a WRITE there is no byte to take; the last byte carries the END mark where `endMark` says so. -/
def State.writeBytes : List Byte → Bool → State → State
  | [], _, s => s
  | b :: rest, endMark, s =>
    match s.bus with
    | .write st => State.writeBytes rest endMark (s.writeByte st b (endMark && rest.isEmpty))
    | .discarding => if endMark && rest.isEmpty then { s with bus := .idle } else State.writeBytes rest endMark s
    | _ => s

/-- The station takes bytes of a READ's transfer (R153): the last one carries the END mark and ends the transaction. Outside a READ there
is none to take; in a discarded one there is none either (DESIGN CHOICE, log entry 19). -/
def State.readBytes : Nat → State → State
  | 0, s => s
  | n + 1, s =>
    match s.bus with
    | .read _ [] => { s with bus := .idle }
    | .read st [b] => { s with bus := .idle, outputs := s.outputs ++ [.readByte st b true] }
    | .read st (b :: rest) =>
      State.readBytes n { s with bus := .read st rest, outputs := s.outputs ++ [.readByte st b false] }
    | _ => s

/-! ## Replies (R161, R180) -/

/-- A refusal cause with its detail. -/
inductive ReplyCause where
  | notPermitted
  | locked
  | nodeClosed
  | malformed
  | badArgument
  | noContext
  | duplicateId
  | slotBusy (slot : Nat) (map : MapIx)
  | noFreeRun
  | wrongState
  | overBudget
  | limitBelowLoad
  | linkDown
  | busy
  | unknownCommand
  deriving DecidableEq, Repr

/-- The result code of a refusal. -/
def ReplyCause.code : ReplyCause → Byte
  | .notPermitted => 0x01
  | .locked => 0x02
  | .nodeClosed => 0x03
  | .malformed => 0x04
  | .badArgument => 0x05
  | .noContext => 0x06
  | .duplicateId => 0x07
  | .slotBusy _ _ => 0x08
  | .noFreeRun => 0x09
  | .wrongState => 0x0A
  | .overBudget => 0x0B
  | .limitBelowLoad => 0x0C
  | .linkDown => 0x0D
  | .busy => 0x0E
  | .unknownCommand => 0x0F

/-- The detail of a refusal: SLOT_BUSY alone carries one. -/
def ReplyCause.detail : ReplyCause → List Byte
  | .slotBusy slot map => nat16 slot ++ [indexByte map]
  | _ => []

/-- The reply of a refused command. -/
def refusalReply (command : Byte) (r : ReplyCause) : List Byte := [r.code, command] ++ r.detail

/-- The reply of an accepted command. -/
def acceptedReply (command : Byte) (data : List Byte) : List Byte := [0x00, command] ++ data

/-- What a command's own checks and effect give: accepted, with the state it leaves and the data it returns, or refused. -/
inductive Verdict where
  | accepted (s : State) (data : List Byte)
  | refused (r : ReplyCause)

/-! ## Execution -/

/-- The stations in the order the Command Unit serves them: from the one after the last-served, wrapping from 8 to 0
(R152). -/
def serviceOrder (lastServed : Station) : List Station := (List.finRange 9).map fun k => lastServed + 1 + k

/-- The command the next execution takes: of the first FULL intake in that order (R152). -/
def State.served (s : State) : Option (Station × Command) :=
  (serviceOrder s.lastServed).findSome? fun st =>
    match s.intakes[st] with
    | .full c => some (st, c)
    | .empty => none
    | .filling _ => none

/-- The served intake becomes EMPTY and its station the last-served (R152). A hold on that station ends: the held byte is
stored and the intake moves to FILLING (R151), and to FULL where that byte carries the END mark (R150). -/
def State.takeIntake (s : State) (st : Station) : State :=
  let t := { s with lastServed := st }
  match s.bus with
  | .held h b endMark =>
    if h = st then
      { t.setIntake st (intakeWith (Command.start b) endMark) with bus := if endMark then .idle else .write st }
    else t.setIntake st .empty
  | .idle => t.setIntake st .empty
  | .discarding => t.setIntake st .empty
  | .write _ => t.setIntake st .empty
  | .read _ _ => t.setIntake st .empty

/-- The command codes (R180). -/
def commandCodes : List Byte :=
  [0x01, 0x02, 0x03, 0x04, 0x05, 0x06, 0x07, 0x08, 0x10, 0x11, 0x12, 0x13, 0x14, 0x15, 0x16, 0x18, 0x19, 0x1A, 0x1B,
    0x1C, 0x20, 0x21, 0x22, 0x23, 0x24]

/-- The command codes a locked station may use (R158): the reads, NEXT CHANGED, SET ATTENTION MASK and CLEAR STATION. -/
def allowedWhenLocked (code : Byte) : Bool :=
  ([0x01, 0x02, 0x03, 0x04, 0x05, 0x06, 0x07, 0x08] : List Byte).contains code

/-- The general checks, in their order (R161): damaged write, command code, length, lockout. `layout` says whether the
argument bytes have the length of the code's layout. -/
def State.generalCheck (s : State) (st : Station) (c : Command) (layout : List Byte → Bool) : Option ReplyCause :=
  if c.overlength || c.truncated then some .malformed
  else if !commandCodes.contains c.first then some .unknownCommand
  else if !layout c.rest then some .malformed
  else if s.lockedOut st && !allowedWhenLocked c.first then some .locked
  else none

/-- Each executed command posts exactly one reply into the issuing station's holder (R152, R161). A refused command changes
nothing but that holder. -/
def State.answer (s : State) (st : Station) (command : Byte) : Verdict → State
  | .accepted t data => t.setHolder st (some (acceptedReply command data))
  | .refused r => s.setHolder st (some (refusalReply command r))

/-- One execution (R152, R161): the intake is taken, the command is checked, carried out and answered. -/
def State.execute (s : State) (st : Station) (c : Command) (layout : List Byte → Bool)
    (body : Station → List Byte → State → Verdict) : State :=
  let t := s.takeIntake st
  t.answer st c.first
    (match t.generalCheck st c layout with
      | some r => .refused r
      | none => body st c.rest t)

/-- An execution row of the table: it occurs where the served intake holds a command of the row, and else changes nothing
(log entry 6). -/
def runCommand (ofRow : Command → Bool) (layout : List Byte → Bool) (body : Station → List Byte → State → Verdict)
    (s : State) : Host.Outcome State Fault Refusal :=
  match s.served with
  | some (st, c) => if ofRow c then .next (s.execute st c layout body) else .next s
  | none => .next s

/-- The command is the row's by its code. -/
def hasCode (code : Byte) (c : Command) : Bool := c.first == code

/-- The argument bytes are `n` (R180: the length less the code). -/
def argCount (n : Nat) (args : List Byte) : Bool := args.length == n

/-! ## Arguments -/

/-- A point argument: a port number 0 to 15 (R162, R179). -/
def pointArg (b : Byte) : Option PointIx := if h : b.toNat < 16 then some ⟨b.toNat, h⟩ else none

/-- A map argument: I0 to I7 as 0 to 7, O0 to O7 as 8 to 15 (R179). -/
def mapArg (b : Byte) : Option MapIx := if h : b.toNat < 16 then some ⟨b.toNat, h⟩ else none

/-- A degree argument, 0 to 7. -/
def degreeArg (b : Byte) : Option Degree := if h : b.toNat < 8 then some ⟨b.toNat, h⟩ else none

/-- A port argument, 0 to 15: an add port or a drop port. -/
def portArg (b : Byte) : Option (Fin 16) := if h : b.toNat < 16 then some ⟨b.toNat, h⟩ else none

/-- A context index argument, 0 to 47. -/
def contextArg (n : Nat) : Option CtxIx := if h : n < 48 then some ⟨n, h⟩ else none

/-- The run or range at a place of the arguments whose first slot and whose count take two bytes each (R180). -/
def rangeAt (args : List Byte) (k : Nat) : Run := ⟨(word16At args k).toNat, (word16At args (k + 2)).toNat⟩

/-- The run at a place of the arguments whose width takes one byte (R180). -/
def runAt (args : List Byte) (k : Nat) : Run := ⟨(word16At args k).toNat, (byteAt args (k + 2)).toNat⟩

/-- A body that station 0 alone may carry out (R162). -/
def stationZero (body : List Byte → State → Verdict) (st : Station) (args : List Byte) (s : State) : Verdict :=
  if st = 0 then body args s else .refused .notPermitted

/-- The issuer is the context's owner or station 0 (R162). -/
def ownerOrZero (st : Station) (c : Context) : Bool := st == c.owner || st == 0

/-- The seven timing values in their order (R165, R180). -/
def Timing.bytes (t : Timing) : List Byte :=
  nat32 t.probeHop ++ nat32 t.reserveHold ++ nat32 t.lightHop ++ nat32 t.litHop ++ nat32 t.budgetWait ++
    nat32 t.actuatorWait ++ nat32 t.sweepWait

end Sys2Proof.Machine
end

