-- ==== Sys2Proof/Machine/Bus.lean ====
section
/-! DEFINITION. The events of the shelf bus and of the reset pin: WRITE, READ, POLL, an address byte of another target, the bus
clear line and RESET (chapter 9, R178). -/

namespace Sys2Proof.Machine

/-- A transaction's opening, where the event carries one; else the event goes on with the transaction in progress. -/
def State.openTransaction (s : State) : Option BusStart → State
  | some b => s.startTransaction b
  | none => s

/-- WRITE (R149, R150, R151). -/
def execWrite (start : Option BusStart) (data : List Byte) (endMark : Bool) (s : State) :
    Host.Outcome State Fault Refusal :=
  .next (State.writeBytes data endMark (s.openTransaction start))

/-- READ (R149, R153). -/
def execRead (start : Option BusStart) (taken : Nat) (s : State) : Host.Outcome State Fault Refusal :=
  .next (State.readBytes taken (s.openTransaction start))

/-- POLL (R149, R154). -/
def execPoll (start : BusStart) (s : State) : Host.Outcome State Fault Refusal := .next (s.startTransaction start)

/-- OTHER_TARGET_ADDRESS_BYTE (R149): it ends the transaction the part is in, and the part ignores what follows. The address
byte of the operand names another target; nothing else of it matters to the part. -/
def execOtherTargetAddressByte (_address : Byte) (s : State) : Host.Outcome State Fault Refusal :=
  .next s.endTransaction

/-- The SBI after an assertion of the bus clear line (R156). -/
def State.busClear (s : State) : State :=
  { s with bus := .idle, intakes := Vector.replicate 9 .empty, holders := Vector.replicate 9 none }

/-- BUS_CLEAR (R156). -/
def execBusClear (s : State) : Host.Outcome State Fault Refusal := .next s.busClear

/-- The state at the end of a reset (R178): every block in its reset state, the strap inputs sampled (R148), and each carrier as
its input stands (R124, R135). -/
def resetWith (strap : BitVec 3) (carriers : BitVec 8) : State :=
  { State.reset with
    strap := strap
    links := Vector.ofFn fun d : Degree => Link.reset (carriers.getLsbD d.val) }

/-- RESET (R178). What the part has put on its ports stays put, and what waits outside the part still waits (log entry 13). -/
def execReset (strap : BitVec 3) (carriers : BitVec 8) (s : State) : Host.Outcome State Fault Refusal :=
  .next { resetWith strap carriers with outputs := s.outputs, pending := s.pending }

end Sys2Proof.Machine
end

