-- ==== Sys2Proof/Machine/ReadCommands.lean ====
section
/-! DEFINITION. The reading and station commands: READ NODE, READ CONTEXT, NEXT CHANGED, READ MAP, READ POINT, READ LINK, SET
ATTENTION MASK, CLEAR STATION, and the execution of an unknown command (sections 10.6 and 10.7). -/

namespace Sys2Proof.Machine

/-! ## READ NODE -/

/-- The live count (R175). -/
def State.liveCount (s : State) : Nat :=
  s.contexts.toList.countP fun r => match r with
    | some c => c.live
    | none => false

/-- The alert flags in one byte (R180). -/
def Alerts.byte (a : Alerts) : Byte :=
  let bit (k : Nat) (b : Bool) : Byte := if b then 1#8 <<< k else 0
  bit 0 a.overrun ||| bit 1 a.linkDown ||| bit 2 a.monitor ||| bit 3 a.actuator ||| bit 4 a.darkUnconfirmed

/-- The data of a READ NODE reply (R175, R180). -/
def State.nodeData (s : State) : List Byte :=
  bytes16 s.nodeId ++ [boolByte s.nodeOpen, byte s.liveCount, byte s.endedList.length, s.alerts.byte] ++
    nat16 s.sweepDiscards ++ nat16 s.unmatchedAcks ++ s.timing.bytes

/-- READ NODE's effect: the reply is formed, then all five alert flags are cleared (R175). -/
def readNodeBody (_st : Station) (_args : List Byte) (s : State) : Verdict :=
  .accepted { s with alerts := Alerts.clear } s.nodeData

/-- READ_NODE (R175). -/
def execReadNode (s : State) : Host.Outcome State Fault Refusal :=
  runCommand (hasCode 0x01) (argCount 0) readNodeBody s

/-! ## READ CONTEXT -/

/-- The index READ CONTEXT finds by lightpath ID (R38): the live record with the ID, else the ENDED one that ended last. -/
def State.findById (s : State) (id : Word32) : Option CtxIx :=
  match s.findLive id with
  | some (i, _) => some i
  | none => s.endedList.reverse.find? fun i => match s.context i with
    | some c => c.lightpathId == id
    | none => false

/-- READ CONTEXT's checks and reply (R38, R173): by index or by lightpath ID. -/
def readContextBody (_st : Station) (args : List Byte) (s : State) : Verdict :=
  let value := word32At args 1
  if byteAt args 0 = 0 then
    match contextArg value.toNat with
    | some i => .accepted s (s.contextBlock i)
    | none => .refused .badArgument
  else if byteAt args 0 = 1 then
    match s.findById value with
    | some i => .accepted s (s.contextBlock i)
    | none => .accepted s [0xFF]
  else .refused .badArgument

/-- READ_CONTEXT (R38). -/
def execReadContext (s : State) : Host.Outcome State Fault Refusal :=
  runCommand (hasCode 0x02) (argCount 5) readContextBody s

/-! ## NEXT CHANGED -/

/-- The lowest index in a station's changed set (R174). -/
def State.lowestChanged (s : State) (st : Station) : Option CtxIx :=
  (List.finRange 48).find? fun i => (s.changed[st])[i]

/-- NEXT CHANGED's effect (R174): the lowest index leaves the issuing station's set, and its record is returned. -/
def nextChangedBody (st : Station) (_args : List Byte) (s : State) : Verdict :=
  match s.lowestChanged st with
  | some i =>
    .accepted { s with changed := put s.changed st (put s.changed[st] i false) } (s.contextBlock i)
  | none => .accepted s [0xFF]

/-- NEXT_CHANGED (R174). -/
def execNextChanged (s : State) : Host.Outcome State Fault Refusal :=
  runCommand (hasCode 0x03) (argCount 0) nextChangedBody s

/-! ## READ MAP -/

/-- The run-length entries of a range (R17). -/
def State.mapEntries (s : State) (m : MapIx) (r : Run) : List (Slot × Nat) :=
  runLengths (((s.maps[m]).toList.drop r.first).take r.width)

/-- The data of a READ MAP reply: at most 64 entries, with the truncated flag (R17, R180). -/
def mapData (entries : List (Slot × Nat)) : List Byte :=
  [byte (min 64 entries.length), boolByte (64 < entries.length)] ++ (entries.take 64).flatMap mapEntryBytes

/-- READ MAP's checks and reply (R17, R173). -/
def readMapBody (_st : Station) (args : List Byte) (s : State) : Verdict :=
  match mapArg (byteAt args 0) with
  | some m =>
    let r := rangeAt args 1
    if r.isRange then .accepted s (mapData (s.mapEntries m r)) else .refused .badArgument
  | none => .refused .badArgument

/-- READ_MAP (R17). -/
def execReadMap (s : State) : Host.Outcome State Fault Refusal :=
  runCommand (hasCode 0x04) (argCount 5) readMapBody s

/-! ## READ POINT -/

/-- The service request's code and its run, all ones while it is none (R180). -/
def Service.bytes : Service → List Byte
  | .none => [0, 0xFF, 0xFF, 0xFF]
  | .pending r => [1] ++ nat16 r.first ++ [byte r.width]
  | .active r => [2] ++ nat16 r.first ++ [byte r.width]

/-- The last service result's code (R180). -/
def SettingOutcome.code : SettingOutcome → Byte
  | .ok => 0
  | .reject => 1
  | .timeout => 2

/-- The holder, its sub-state, its outstanding flag and its settle count, the last three 0 while there is none (R77, R180). -/
def State.holderBytes (s : State) (p : PointIx) : List Byte :=
  match (s.point p).holder with
  | some i =>
    [indexByte i, ((s.context i).map fun c => c.state.subCode).getD 0, boolByte (s.isOutstanding p),
      byte (s.point p).settle]
  | none => [0xFF, 0, 0, 0]

/-- The data of a READ POINT reply (R77, R180). -/
def State.pointData (s : State) (p : PointIx) : List Byte :=
  let q := s.point p
  int16 q.limit ++ nat32 (forward q.limit) ++ nat32 q.load ++ int16 q.density ++ [byte q.guardTol] ++
    [byte q.line.length] ++ q.line.map indexByte ++ [byte q.queue.length] ++ q.queue.map indexByte ++
    s.holderBytes p ++ q.service.bytes ++ [optByte SettingOutcome.code q.lastService] ++
    opt16 (fun b => nat16 b.toNat) q.lastSequence

/-- READ POINT's check and reply (R77, R173). -/
def readPointBody (_st : Station) (args : List Byte) (s : State) : Verdict :=
  match pointArg (byteAt args 0) with
  | some p => .accepted s (s.pointData p)
  | none => .refused .badArgument

/-- READ_POINT (R77). -/
def execReadPoint (s : State) : Host.Outcome State Fault Refusal :=
  runCommand (hasCode 0x05) (argCount 1) readPointBody s

/-! ## READ LINK -/

/-- The data of a READ LINK reply (R134, R180). -/
def Link.data (l : Link) : List Byte :=
  [l.state.code, boolByte l.carrier, byte l.rx.length, byte l.tx.length, boolByte l.overrun] ++ nat16 l.rxErrors ++
    nat16 l.overruns ++ nat16 l.malformed ++ nat16 l.stray ++ nat16 l.txDrops

/-- The clear option: the five counts become 0 and the overrun flag clear (R134). -/
def Link.clearCounts (l : Link) : Link :=
  { l with overrun := false, rxErrors := 0, overruns := 0, malformed := 0, stray := 0, txDrops := 0 }

/-- READ LINK's checks, reply and clear option (R134, R173). A clear option of neither 0 nor 1 names no code of its field
(R161, R179). -/
def readLinkBody (_st : Station) (args : List Byte) (s : State) : Verdict :=
  match degreeArg (byteAt args 0) with
  | some d =>
    if byteAt args 1 = 0 then .accepted s (s.link d).data
    else if byteAt args 1 = 1 then .accepted (s.modLink d Link.clearCounts) (s.link d).data
    else .refused .badArgument
  | none => .refused .badArgument

/-- READ_LINK (R134). -/
def execReadLink (s : State) : Host.Outcome State Fault Refusal :=
  runCommand (hasCode 0x06) (argCount 2) readLinkBody s

/-! ## SET ATTENTION MASK and CLEAR STATION -/

/-- SET ATTENTION MASK's check and effect (R177): a mask that sets a bit above 3 is refused. -/
def setAttentionMaskBody (st : Station) (args : List Byte) (s : State) : Verdict :=
  if (byteAt args 0).toNat < 16 then .accepted { s with masks := put s.masks st ((byteAt args 0).setWidth 4) } []
  else .refused .badArgument

/-- SET_ATTENTION_MASK (R177). -/
def execSetAttentionMask (s : State) : Host.Outcome State Fault Refusal :=
  runCommand (hasCode 0x07) (argCount 1) setAttentionMaskBody s

/-- CLEAR STATION's effect before its own reply is posted (R157): the holder and the changed set are emptied. -/
def clearStationBody (st : Station) (_args : List Byte) (s : State) : Verdict :=
  .accepted { s.setHolder st none with changed := put s.changed st (Vector.replicate 48 false) } []

/-- CLEAR_STATION (R157). -/
def execClearStation (s : State) : Host.Outcome State Fault Refusal :=
  runCommand (hasCode 0x08) (argCount 0) clearStationBody s

/-! ## Unknown commands -/

/-- UNKNOWN_COMMAND (R161): the execution of an intake whose first byte names no command. The general checks refuse it, as
UNKNOWN_COMMAND, or as MALFORMED where the write was damaged; its body is never reached. -/
def execUnknownCommand (s : State) : Host.Outcome State Fault Refusal :=
  runCommand (fun c => !commandCodes.contains c.first) (fun _ => true) (fun _ _ _ => .refused .unknownCommand) s

end Sys2Proof.Machine
end

