-- ==== Sys2Proof/Machine/NodeCommands.lean ====
section
/-! DEFINITION. The station-0 commands that configure the node, its links, its maps and its points (sections 10.3 and 10.4). -/

namespace Sys2Proof.Machine

/-! ## CONFIGURE NODE, OPEN NODE, CLOSE NODE -/

/-- CONFIGURE NODE's checks and effect (R163). -/
def configureNodeBody (args : List Byte) (s : State) : Verdict :=
  if word16At args 0 = 0 then .refused .badArgument
  else if s.liveCount ≠ 0 then .refused .wrongState
  else .accepted { s with nodeId := word16At args 0 } []

/-- CONFIGURE_NODE (R163). -/
def execConfigureNode (s : State) : Host.Outcome State Fault Refusal :=
  runCommand (hasCode 0x10) (argCount 2) (stationZero configureNodeBody) s

/-- OPEN NODE's check and effect (R164). -/
def openNodeBody (_args : List Byte) (s : State) : Verdict :=
  if s.nodeId = 0 then .refused .wrongState else .accepted { s with nodeOpen := true } []

/-- OPEN_NODE (R164). -/
def execOpenNode (s : State) : Host.Outcome State Fault Refusal :=
  runCommand (hasCode 0x11) (argCount 0) (stationZero openNodeBody) s

/-- CLOSE NODE's effect (R164). -/
def closeNodeBody (_args : List Byte) (s : State) : Verdict := .accepted { s with nodeOpen := false } []

/-- CLOSE_NODE (R164). -/
def execCloseNode (s : State) : Host.Outcome State Fault Refusal :=
  runCommand (hasCode 0x12) (argCount 0) (stationZero closeNodeBody) s

/-! ## SET TIMING -/

/-- The `n`th value of a SET TIMING, clamped to its range, or the present value where it is not given (R35, R165). -/
def timingValue (args : List Byte) (n lo hi present : Nat) : Nat :=
  if (byteAt args 0).getLsbD n then clampNat lo hi (word32At args (1 + 4 * n)).toNat else present

/-- The timing table after a SET TIMING (R35, R165). -/
def Timing.written (t : Timing) (args : List Byte) : Timing where
  probeHop := timingValue args 0 1 10000 t.probeHop
  reserveHold := timingValue args 1 1 600000 t.reserveHold
  lightHop := timingValue args 2 1 600000 t.lightHop
  litHop := timingValue args 3 1 600000 t.litHop
  budgetWait := timingValue args 4 1000 3600000 t.budgetWait
  actuatorWait := timingValue args 5 10 5000 t.actuatorWait
  sweepWait := timingValue args 6 100 10000 t.sweepWait

/-- SET TIMING's effect (R165): the reply carries the whole table after the write. -/
def setTimingBody (args : List Byte) (s : State) : Verdict :=
  .accepted { s with timing := s.timing.written args } (s.timing.written args).bytes

/-- SET_TIMING (R165). -/
def execSetTiming (s : State) : Host.Outcome State Fault Refusal :=
  runCommand (hasCode 0x13) (argCount 29) (stationZero setTimingBody) s

/-! ## SET POINT -/

/-- The limit a SET POINT gives, or the present one (R54, R180). -/
def newLimit (args : List Byte) (q : Point) : Int :=
  if (byteAt args 1).getLsbD 0 then (word16At args 2).toInt else q.limit

/-- The density a SET POINT gives, clamped, or the present one (R54). -/
def newDensity (args : List Byte) (q : Point) : Int :=
  if (byteAt args 1).getLsbD 1 then clampInt (-300) 100 (word16At args 4).toInt else q.density

/-- The guard a SET POINT gives, clamped, or the present one (R54). -/
def newGuard (args : List Byte) (q : Point) : Nat :=
  if (byteAt args 1).getLsbD 2 then clampNat 1 30 (byteAt args 6).toNat else q.guardTol

/-- SET POINT's checks and effect (R54, R166): a limit whose linear value exceeds the old one's starts an admission
attempt at once. -/
def setPointBody (args : List Byte) (s : State) : Verdict :=
  match pointArg (byteAt args 0) with
  | none => .refused .badArgument
  | some p =>
    let q := s.point p
    let limit := newLimit args q
    let given := (byteAt args 1).getLsbD 0
    if given ∧ (limit < -400 ∨ 250 < limit) then .refused .badArgument
    else if given ∧ forward limit < q.load then .refused .limitBelowLoad
    else
      let density := newDensity args q
      let guardTol := newGuard args q
      let t := s.modPoint p fun x => { x with limit := limit, density := density, guardTol := guardTol }
      .accepted (if given ∧ forward q.limit < forward limit then t.attempt p else t)
        (int16 limit ++ int16 density ++ [byte guardTol])

/-- SET_POINT (R54, R166). -/
def execSetPoint (s : State) : Host.Outcome State Fault Refusal :=
  runCommand (hasCode 0x14) (argCount 7) (stationZero setPointBody) s

/-! ## SET LOCKOUT -/

/-- SET LOCKOUT's check and effect (R158, R167, R180): bit n names station n. -/
def setLockoutBody (args : List Byte) (s : State) : Verdict :=
  let w := word16At args 0
  if w.getLsbD 0 ∨ 512 ≤ w.toNat then .refused .badArgument
  else .accepted { s with lockout := Vector.ofFn fun st : Station => w.getLsbD st.val } []

/-- SET_LOCKOUT (R167). -/
def execSetLockout (s : State) : Host.Outcome State Fault Refusal :=
  runCommand (hasCode 0x15) (argCount 2) (stationZero setLockoutBody) s

/-! ## LINK CONTROL -/

/-- An enable taken at a link (R125): DISABLED goes to DOWN, and to UP in the same event if the carrier is present. -/
def Link.enable (l : Link) : Link :=
  match l.state with
  | .disabled => { l with state := if l.carrier then .up else .down }
  | .down => l
  | .up => l
  | .draining => l

/-- A disable taken at a link (R125, R127): the receive queue is emptied uncounted; an UP link drains, and is DISABLED at
once if its transmit queue is empty. -/
def Link.disable (l : Link) : Link :=
  match l.state with
  | .down => { l with state := .disabled, rx := [] }
  | .up => { l with state := if l.tx.isEmpty then .disabled else .draining, rx := [] }
  | .disabled => l
  | .draining => l

/-- LINK CONTROL's checks and the enable (R125, R128, R168). -/
def linkEnableBody (args : List Byte) (s : State) : Verdict :=
  match degreeArg (byteAt args 0) with
  | none => .refused .badArgument
  | some d =>
    if byteAt args 1 ≠ 1 then .refused .badArgument
    else if (s.link d).state = .draining then .refused .wrongState
    else .accepted (s.modLink d Link.enable) []

/-- LINK CONTROL's checks and the disable (R125, R127, R168). -/
def linkDisableBody (args : List Byte) (s : State) : Verdict :=
  match degreeArg (byteAt args 0) with
  | none => .refused .badArgument
  | some d => if byteAt args 1 ≠ 2 then .refused .badArgument else .accepted (s.modLink d Link.disable) []

/-- A LINK CONTROL that is not a disable: the row of the enable takes it. One that orders neither is taken by either row, with
the one refusal that R168 gives it. -/
def isEnable (c : Command) : Bool := c.first == 0x16 && c.rest[1]? != some 2

/-- A LINK CONTROL that is not an enable. -/
def isDisable (c : Command) : Bool := c.first == 0x16 && c.rest[1]? != some 1

/-- LINK_CONTROL_ENABLE (R128). -/
def execLinkControlEnable (s : State) : Host.Outcome State Fault Refusal :=
  runCommand isEnable (argCount 2) (stationZero linkEnableBody) s

/-- LINK_CONTROL_DISABLE (R127). -/
def execLinkControlDisable (s : State) : Host.Outcome State Fault Refusal :=
  runCommand isDisable (argCount 2) (stationZero linkDisableBody) s

/-! ## BAR SLOTS and UNBAR SLOTS -/

/-- A FREE entry becomes BARRED (R15). -/
def Slot.bar : Slot → Slot
  | .free => .barred
  | .barred => .barred
  | .held i => .held i
  | .lit i => .lit i

/-- A BARRED entry becomes FREE (R16). -/
def Slot.unbar : Slot → Slot
  | .barred => .free
  | .free => .free
  | .held i => .held i
  | .lit i => .lit i

/-- The argument checks, the occupancy test and the change of a range (R15, R16, R168). -/
def rangeBody (f : Slot → Slot) (args : List Byte) (s : State) : Verdict :=
  match mapArg (byteAt args 0) with
  | none => .refused .badArgument
  | some m =>
    let r := rangeAt args 1
    if !r.isRange then .refused .badArgument
    else match s.occupancy m r with
      | some k => .refused (.slotBusy k m)
      | none => .accepted (s.changeRun f r m) []

/-- BAR_SLOTS (R15). -/
def execBarSlots (s : State) : Host.Outcome State Fault Refusal :=
  runCommand (hasCode 0x18) (argCount 5) (stationZero (rangeBody Slot.bar)) s

/-- UNBAR_SLOTS (R16). -/
def execUnbarSlots (s : State) : Host.Outcome State Fault Refusal :=
  runCommand (hasCode 0x19) (argCount 5) (stationZero (rangeBody Slot.unbar)) s

/-! ## FORCE DARK and REREFERENCE POINT -/

/-- The service request is PENDING or ACTIVE (R91). -/
def Service.busy : Service → Bool
  | .none => false
  | .pending _ => true
  | .active _ => true

/-- FORCE DARK's checks and effect (R91): the request becomes PENDING, and is granted at once if the lock is free (R60). -/
def forceDarkBody (args : List Byte) (s : State) : Verdict :=
  match pointArg (byteAt args 0) with
  | none => .refused .badArgument
  | some p =>
    let r := runAt args 1
    if !r.isSlotRun then .refused .badArgument
    else match s.occupancy (mapOfPoint p) r with
      | some k => .refused (.slotBusy k (mapOfPoint p))
      | none =>
        if (s.point p).service.busy then .refused .busy
        else .accepted ((s.modPoint p fun q => { q with service := .pending r, lastService := none }).grant p) []

/-- FORCE_DARK (R91). -/
def execForceDark (s : State) : Host.Outcome State Fault Refusal :=
  runCommand (hasCode 0x1A) (argCount 4) (stationZero forceDarkBody) s

/-- How many contexts at a point a REREFERENCE POINT writes the reference of (R169). -/
def State.refreshCount (s : State) (p : PointIx) : Nat :=
  s.contexts.toList.countP fun r => match r with
    | some c => c.refreshable p
    | none => false

/-- REREFERENCE POINT's check and effect (R74, R169). -/
def rereferenceBody (args : List Byte) (s : State) : Verdict :=
  match pointArg (byteAt args 0) with
  | none => .refused .badArgument
  | some p => .accepted (s.refreshReferences p) [byte (s.refreshCount p)]

/-- REREFERENCE_POINT (R169). -/
def execRereferencePoint (s : State) : Host.Outcome State Fault Refusal :=
  runCommand (hasCode 0x1B) (argCount 1) (stationZero rereferenceBody) s

end Sys2Proof.Machine
end

