-- ==== Sys2Proof/Machine/LightpathCommands.lean ====
section
/-! DEFINITION. The lightpath commands: ADOPT, BEGIN, START RAMP, TEARDOWN, ABORT and RELEASE (sections 6.2, 6.6, 6.7, 10.5). -/

namespace Sys2Proof.Machine

/-! ## ADOPT LIGHTPATH -/

/-- The sides an ADOPT LIGHTPATH names, where they fit its role (R171, step 2). -/
def adoptSides (role ingress egress : Byte) : Option Sides :=
  if role = 1 then
    match portArg ingress, degreeArg egress with
    | some a, some e => some (.head a e)
    | _, _ => none
  else if role = 2 then
    match degreeArg ingress, degreeArg egress with
    | some i, some e => some (.transit i e)
    | _, _ => none
  else if role = 3 then
    match degreeArg ingress, portArg egress with
    | some i, some d => some (.tail i d)
    | _, _ => none
  else none

/-- The adopted record (R27, R172). -/
def adoptedContext (s : State) (sides : Sides) (id : Word32) (run : Run) (attenuation window : Nat) : Context where
  state := .inService
  sides := sides
  adopted := true
  rampOnClear := none
  lightpathId := id
  owner := 0
  run := run
  hopIndex := none
  routeLength := none
  route := none
  target := targetOf (s.point sides.point).density run.width
  window := window
  baseStep := none
  step := none
  attenuation := .tenths attenuation
  journal := [⟨.block, .tenths attenuation⟩]
  charge := some (chargeOf (targetOf (s.point sides.point).density run.width) window)
  lastMeasured := none
  reference := none
  abortPending := none
  ending := none
  watchTimer := none

/-- A service request is PENDING or ACTIVE with a run that overlaps (R93, R171, step 5). -/
def Service.overlaps (r : Run) : Service → Bool
  | .none => false
  | .pending q => q.overlaps r
  | .active q => q.overlaps r

/-- ADOPT LIGHTPATH's checks and effect (R9, R171, R172). An OVER_BUDGET refusal makes the admission attempt of R57, which
finds what the last attempt found and changes nothing. -/
def adoptBody (args : List Byte) (s : State) : Verdict :=
  if s.nodeId = 0 then .refused .wrongState
  else match adoptSides (byteAt args 0) (byteAt args 5) (byteAt args 6) with
    | none => .refused .badArgument
    | some sides =>
      let id := word32At args 1
      let run := runAt args 7
      let attenuation := (byteAt args 10).toNat
      let c := adoptedContext s sides id run attenuation (clampNat 1 20 (byteAt args 11).toNat)
      let q := chargeOf c.target c.window
      if !run.isSlotRun || 250 < attenuation then .refused .badArgument
      else if (s.findLive id).isSome then .refused .duplicateId
      else match s.chooseRecord with
        | none => .refused .noContext
        | some i =>
          if (s.point sides.point).service.overlaps run then .refused .busy
          else match s.conflict sides.mapsUsed run with
            | some (k, m) => .refused (.slotBusy k m)
            | none =>
              if !fits (s.point sides.point) q then .refused .overBudget
              else
                .accepted (((s.writeRun sides.mapsUsed run (.lit i)).modPoint sides.point fun p =>
                  { p with load := p.load + q }).create i c .inService) ([indexByte i] ++ nat32 q)

/-- ADOPT_LIGHTPATH (R172). -/
def execAdoptLightpath (s : State) : Host.Outcome State Fault Refusal :=
  runCommand (hasCode 0x1C) (argCount 12) (stationZero adoptBody) s

/-! ## BEGIN LIGHTPATH -/

/-- The layout of a BEGIN LIGHTPATH (R180): 13 bytes and the route length that its seventh byte carries. -/
def beginLayout (args : List Byte) : Bool := decide (12 ≤ args.length) && args.length == 12 + (byteAt args 5).toNat

/-- The arguments of BEGIN LIGHTPATH (R99, R180). -/
structure BeginArgs where
  id : Word32
  addPort : Byte
  length : Nat
  first : Word16
  width : Nat
  window : Nat
  step : Nat
  flags : Byte
  route : List Byte
  deriving DecidableEq, Repr

/-- The arguments out of the bytes of the command, with window and step clamped (R99, step 3). -/
def beginArgs (args : List Byte) : BeginArgs where
  id := word32At args 0
  addPort := byteAt args 4
  length := (byteAt args 5).toNat
  first := word16At args 6
  width := (byteAt args 8).toNat
  window := clampByte 20 (byteAt args 9)
  step := clampByte 30 (byteAt args 10)
  flags := byteAt args 11
  route := args.drop 12

/-- AUTO-LOW (R179). -/
def autoLow : Word16 := 0xFFFE#16

/-- AUTO-HIGH (R179). -/
def autoHigh : Word16 := 0xFFFF#16

/-- The first slot is given as AUTO-LOW or AUTO-HIGH (R10). -/
def BeginArgs.auto (a : BeginArgs) : Bool := a.first == autoLow || a.first == autoHigh

/-- The argument check of R99, step 3. The reserved bits of the flags byte are open (log entry 4). -/
def BeginArgs.valid (a : BeginArgs) : Bool :=
  decide (a.addPort.toNat ≤ 15) && decide (2 ≤ a.length) && decide (a.length ≤ 32) &&
    routeWellFormed a.length a.route && decide (2 ≤ a.width) && decide (a.width ≤ 16) &&
    (a.auto || (decide (a.first.toNat ≤ 383) && decide (a.first.toNat + a.width ≤ 384))) &&
    !(decide (2 ≤ a.flags.toNat) && Config.beginReservedFlagsRefused a.flags)

/-- The permission of BEGIN LIGHTPATH (R99, step 1): station 0, or station d + 1 with route[0] = d. -/
def BeginArgs.permitted (a : BeginArgs) (st : Station) : Bool :=
  st == 0 || a.route.head?.any fun e => e.toNat + 1 == st.val

/-- The claim or the search of R99, step 7 (R8, R10): the first slot of the run, or the refusal. -/
def beginClaim (s : State) (m : MapIx) (a : BeginArgs) : Nat ⊕ ReplyCause :=
  if a.auto then
    match s.searchRun m a.width (a.first == autoHigh) with
    | some f => .inl f
    | none => .inr .noFreeRun
  else
    match s.conflict [m] ⟨a.first.toNat, a.width⟩ with
    | some (k, x) => .inr (.slotBusy k x)
    | none => .inl a.first.toNat

/-- The HEAD record of a BEGIN LIGHTPATH (R27, R100). -/
def headContext (s : State) (st : Station) (addPort : Fin 16) (e : Degree) (run : Run) (a : BeginArgs) : Context where
  state := .probing
  sides := .head addPort e
  adopted := false
  rampOnClear := some (a.flags.getLsbD 0)
  lightpathId := a.id
  owner := st
  run := run
  hopIndex := some 0
  routeLength := some a.length
  route := some a.route
  target := targetOf (s.point (egressPoint e)).density run.width
  window := a.window
  baseStep := some a.step
  step := some a.step
  attenuation := .block
  journal := []
  charge := none
  lastMeasured := none
  reference := none
  abortPending := none
  ending := none
  watchTimer := none

/-- BEGIN LIGHTPATH's checks and effect (R99, R100). -/
def beginBody (st : Station) (args : List Byte) (s : State) : Verdict :=
  let a := beginArgs args
  if !a.permitted st then .refused .notPermitted
  else if !s.nodeOpen then .refused .nodeClosed
  else if !a.valid then .refused .badArgument
  else match portArg a.addPort, degreeArg (a.route.headD 0) with
    | some addPort, some e =>
      if (s.findLive a.id).isSome then .refused .duplicateId
      else match s.chooseRecord with
        | none => .refused .noContext
        | some i =>
          if (s.link e).state ≠ .up then .refused .linkDown
          else match beginClaim s (egressMap e) a with
            | .inr r => .refused r
            | .inl first =>
              let run : Run := ⟨first, a.width⟩
              let t := (s.writeRun [egressMap e] run (.held i)).create i (headContext s st addPort e run a) .probing
              .accepted (t.offer e a.id (.probe 1 first a.width a.window a.step a.length a.route))
                ([indexByte i] ++ nat16 first)
    | _, _ => .refused .badArgument

/-- BEGIN_LIGHTPATH (R100). -/
def execBeginLightpath (s : State) : Host.Outcome State Fault Refusal :=
  runCommand (hasCode 0x20) beginLayout beginBody s

/-! ## START RAMP, TEARDOWN LIGHTPATH, ABORT LIGHTPATH, RELEASE CONTEXT -/

/-- START RAMP's checks and effect (R101, R170). -/
def startRampBody (st : Station) (args : List Byte) (s : State) : Verdict :=
  match s.findLive (word32At args 0) with
  | none => .refused .wrongState
  | some (i, c) =>
    if !ownerOrZero st c then .refused .notPermitted
    else if c.sides.role = .head ∧ c.state = .reserved ∧ c.rampOnClear = some false then
      .accepted (s.joinLine i c) [indexByte i]
    else .refused .wrongState

/-- START_RAMP (R101). -/
def execStartRamp (s : State) : Host.Outcome State Fault Refusal :=
  runCommand (hasCode 0x21) (argCount 4) startRampBody s

/-- TEARDOWN LIGHTPATH's checks and effect (R113, R170): hop 0, or absent for an adopted head. -/
def teardownBody (st : Station) (args : List Byte) (s : State) : Verdict :=
  match s.findLive (word32At args 0) with
  | none => .refused .wrongState
  | some (i, c) =>
    if c.sides.role ≠ .head ∨ c.state ≠ .inService then .refused .wrongState
    else if !ownerOrZero st c then .refused .notPermitted
    else .accepted (s.retireAtTail i c (s.localEnding c .completed) .gradual) [indexByte i]

/-- TEARDOWN_LIGHTPATH (R113). -/
def execTeardownLightpath (s : State) : Host.Outcome State Fault Refusal :=
  runCommand (hasCode 0x22) (argCount 4) teardownBody s

/-- ABORT LIGHTPATH's permission (R112, step 2). -/
def abortPermitted (st : Station) (c : Context) : Bool :=
  if c.state == .inService && c.sides.role != .head then st == 0 else ownerOrZero st c

/-- ABORT LIGHTPATH's checks and effect (R112, R170). Every RETIRING context takes it without effect, whatever began its retirement. DEDUCED
(log entry 20): one that an expiry retired too, where R37 speaks of WRONG_STATE for commands as a class; R161 leaves a command's checks to the
rules of its chapter. -/
def abortBody (st : Station) (args : List Byte) (s : State) : Verdict :=
  match s.findLive (word32At args 0) with
  | none => .refused .wrongState
  | some (i, c) =>
    if !abortPermitted st c then .refused .notPermitted
    else if c.abortIdle then .accepted s [indexByte i]
    else .accepted (s.localAbort i c (s.localEnding c .abortedLocal)) [indexByte i]

/-- ABORT_LIGHTPATH (R112). -/
def execAbortLightpath (s : State) : Host.Outcome State Fault Refusal :=
  runCommand (hasCode 0x23) (argCount 4) abortBody s

/-- RELEASE CONTEXT's checks and effect (R31, R170). -/
def releaseBody (st : Station) (args : List Byte) (s : State) : Verdict :=
  match contextArg (byteAt args 0).toNat with
  | none => .refused .badArgument
  | some i =>
    match s.context i with
    | none => .refused .wrongState
    | some c =>
      if c.state ≠ .ended then .refused .wrongState
      else if !ownerOrZero st c then .refused .notPermitted
      else .accepted ((s.forget i).setContext i none) [indexByte i]

/-- RELEASE_CONTEXT (R31). -/
def execReleaseContext (s : State) : Host.Outcome State Fault Refusal :=
  runCommand (hasCode 0x24) (argCount 1) releaseBody s

end Sys2Proof.Machine
end

