-- ==== Sys2Proof/Machine/Links.lean ====
section
/-! DEFINITION. The events of the peer link units: carrier arrival and loss, the completion of a received frame and the departure
of a sent one (chapter 7). -/

namespace Sys2Proof.Machine

/-- A carrier arrival taken at a link (R125). In UP and in DRAINING it does not arise, since the carrier is present. -/
def Link.arrive (l : Link) : Link :=
  match l.state with
  | .down => { l with carrier := true, state := .up }
  | .disabled => { l with carrier := true }
  | .up => { l with carrier := true }
  | .draining => { l with carrier := true }

/-- CARRIER_ARRIVAL (R125). -/
def execCarrierArrival (link : Degree) (s : State) : Host.Outcome State Fault Refusal := .next (s.modLink link Link.arrive)

/-- A link whose carrier is lost in UP or DRAINING enters a state, its transmit queue emptied and counted (R126). -/
def Link.dropAll (l : Link) (st : LinkState) : Link :=
  { l with carrier := false, state := st, tx := [], txDrops := countUpBy l.tx.length l.txDrops }

/-- A carrier loss taken at a link (R125, R126). -/
def Link.lose (l : Link) : Link :=
  match l.state with
  | .up => l.dropAll .down
  | .draining => l.dropAll .disabled
  | .down => { l with carrier := false }
  | .disabled => { l with carrier := false }

/-- A carrier loss in this state raises LINK_DOWN (R126). -/
def LinkState.lossRaises : LinkState → Bool
  | .up => true
  | .draining => true
  | .down => false
  | .disabled => false

/-- A carrier loss at a link, with its alert (R126). -/
def State.carrierLoss (s : State) (d : Degree) : State :=
  if (s.link d).state.lossRaises then (s.modLink d Link.lose).raiseLinkDown else s.modLink d Link.lose

/-- CARRIER_LOSS (R126). -/
def execCarrierLoss (link : Degree) (s : State) : Host.Outcome State Fault Refusal := .next (s.carrierLoss link)

/-- The receive queue's unit takes frames in this state (R124, R129). -/
def LinkState.receives : LinkState → Bool
  | .up => true
  | .down => true
  | .draining => false
  | .disabled => false

/-- A frame completes at a link (R129, R130): it is queued, or it overruns, or it is discarded uncounted. -/
def State.receive (s : State) (d : Degree) (f : RxFrame) : State :=
  if (s.link d).state.receives then
    if (s.link d).rx.length < 4 then s.modLink d fun l => { l with rx := l.rx ++ [f] }
    else (s.modLink d fun l => { l with overrun := true, overruns := countUp l.overruns }).raiseOverrun
  else s

/-- FRAME_COMPLETION (R129). -/
def execFrameCompletion (link : Degree) (bytes : List Byte) (s : State) : Host.Outcome State Fault Refusal :=
  .next (s.receive link ⟨frameBytes bytes, receiveStatus bytes⟩)

/-- The link sends frames in this state (R132). -/
def LinkState.sends : LinkState → Bool
  | .up => true
  | .draining => true
  | .down => false
  | .disabled => false

/-- The head frame of the transmit queue has left (R132); the last frame of a DRAINING link ends the draining (R127). -/
def Link.depart (l : Link) : Link :=
  { l with tx := l.tx.tail, state := if l.state = .draining ∧ l.tx.tail = [] then .disabled else l.state }

/-- A departure at a link, if a frame is in transmission there (R132): the frame leaves as its bytes, with its new check (R181). -/
def State.depart (s : State) (d : Degree) : State :=
  match (s.link d).tx with
  | f :: _ =>
    if (s.link d).state.sends then { s.modLink d Link.depart with outputs := s.outputs ++ [.frame d f.encode] } else s
  | [] => s

/-- FRAME_DEPARTURE (R132). -/
def execFrameDeparture (link : Degree) (s : State) : Host.Outcome State Fault Refusal := .next (s.depart link)

end Sys2Proof.Machine
end

