-- ==== Sys2Proof/Machine/Ports.lean ====
section
/-! DEFINITION. The events of the Monitor Port and the Actuator Port (chapter 8) and the expiries of the watch and sweep timers
(R36, R66, R84). -/

namespace Sys2Proof.Machine

/-! ## The Monitor Port -/

/-- A discarded sweep record (R138). -/
def State.discardSweep (s : State) : State := { s with sweepDiscards := countUp s.sweepDiscards }.raiseMonitor

/-- A sweep record's port number (R182). -/
def recordPoint (bytes : List Byte) : Option PointIx :=
  if h : (byteAt bytes 0).toNat < 16 then some ⟨(byteAt bytes 0).toNat, h⟩ else none

/-- The tests of a record for a point that exists, and its acceptance (R138, R139): 384 readings after the port number and the
sequence, so 770 bytes (R182); a sequence other than the last accepted one. -/
def State.takeSweep (s : State) (p : PointIx) (bytes : List Byte) : State :=
  if bytes.length ≠ 770 then s.discardSweep
  else if (s.point p).lastSequence = some (byteAt bytes 1) then s.discardSweep
  else s.acceptSweep p (byteAt bytes 1) (readingWords (bytes.drop 2))

/-- SWEEP_RECORD (R138, R139). -/
def execSweepRecord (bytes : List Byte) (s : State) : Host.Outcome State Fault Refusal :=
  .next (match recordPoint bytes with
    | some p => s.takeSweep p bytes
    | none => s.discardSweep)

/-! ## The Actuator Port -/

/-- The point of the entry that holds a tag (R144: tags in the table are distinct). -/
def State.tagPoint (s : State) (t : Byte) : Option PointIx :=
  (List.finRange 16).find? fun p => (s.outstanding[p]).any fun e => e.tag == t

/-- A point's entry leaves the outstanding table, its timer with it (R144, R146). -/
def State.removeEntry (s : State) (p : PointIx) : State := { s with outstanding := put s.outstanding p none }

/-- An unmatched acknowledgement (R145). -/
def State.unmatched (s : State) : State := { s with unmatchedAcks := countUp s.unmatchedAcks }.raiseActuator

/-- The result of an acknowledgement (R182): 0 is OK and 1 is REJECT. -/
def resultOf (b : Byte) : Option SettingOutcome :=
  if b = 0 then some .ok else if b = 1 then some .reject else none

/-- ACKNOWLEDGEMENT (R144, R145): two bytes, the tag and the result (R182). -/
def execAcknowledgement (bytes : List Byte) (s : State) : Host.Outcome State Fault Refusal :=
  .next (match bytes with
    | [tag, result] =>
      match resultOf result, s.tagPoint tag with
      | some o, some p => (s.removeEntry p).deliver p o
      | _, _ => s.unmatched
    | _ => s.unmatched)

/-- The last of the waiting settings with a tag, withdrawn (R146): an earlier one with the same tag is not this entry's. -/
def withdraw (t : Byte) (waiting : List Setting) : List Setting :=
  (waiting.reverse.eraseP fun m => m.tag == t).reverse

/-- ACTUATOR_TIMER_EXPIRY (R146): it occurs while a setting is outstanding at the point with no time remaining; an entry whose timer was
armed anew after the expiry had fallen due has time left, and its expiry does not occur. -/
def execActuatorTimerExpiry (point : PointIx) (s : State) : Host.Outcome State Fault Refusal :=
  .next (match s.outstanding[point] with
    | some e =>
      if e.timer = 0 then { s.removeEntry point with toSend := withdraw e.tag s.toSend }.deliver point .timeout else s
    | none => s)

/-- The messages that have been sent in full, once the setting being sent is (R143, R182). -/
def sentInFull : Option Setting → List Output
  | some m => [.setting m.encode]
  | none => []

/-- SETTING_TRANSMISSION (R143): the setting being sent, if there is one, has been sent, and the next placed one begins. -/
def execSettingTransmission (s : State) : Host.Outcome State Fault Refusal :=
  .next { s with sending := s.toSend.head?, toSend := s.toSend.tail, outputs := s.outputs ++ sentInFull s.sending }

/-! ## Timer expiries -/

/-- The timed-out state that an expiry records (R21, R36); none in a state whose watch timer is disarmed. -/
def CtxState.timed : CtxState → Option TimedState
  | .probing => some .probing
  | .reserved => some .reserved
  | .waitBudget => some .waitBudget
  | .passed => some .passed
  | .ramping _ _ => none
  | .inService => none
  | .retiring _ _ => none
  | .ended => none

/-- WATCH_TIMER_EXPIRY (R34, R36): it occurs when the context's remaining time has reached 0, and starts a local abort. A timer that another
event has disarmed or reloaded first is not at 0, and the expiry does not occur (R37). -/
def execWatchTimerExpiry (context : CtxIx) (s : State) : Host.Outcome State Fault Refusal :=
  .next (match s.context context with
    | some c =>
      match c.watchTimer, c.state.timed with
      | some 0, some w => s.localAbort context c { s.localEnding c .timeout with timedOut := some w }
      | _, _ => s
    | none => s)

/-- SWEEP_TIMER_EXPIRY (R66, R84): it occurs when the remaining time of the point's sweep timer has reached 0. -/
def execSweepTimerExpiry (point : PointIx) (s : State) : Host.Outcome State Fault Refusal := .next (s.sweepExpiry point)

end Sys2Proof.Machine
end

