-- ==== Sys2Proof/Machine/Protocol.lean ====
section
/-! DEFINITION. The Protocol Engine: the takings of frames from the receive queues of the peer links (chapter 6, R131). -/

namespace Sys2Proof.Machine

/-! ## Taking the head of a receive queue -/

/-- The head frame of a link leaves its receive queue (R131). -/
def State.removeHead (s : State) (d : Degree) : State := s.modLink d fun l => { l with rx := l.rx.tail }

/-- A malformed frame is counted on its link (R97, R131). -/
def State.countMalformed (s : State) (d : Degree) : State :=
  s.modLink d fun l => { l with malformed := countUp l.malformed }

/-- A stray frame is counted on its link (R98, R131). -/
def State.countStray (s : State) (d : Degree) : State := s.modLink d fun l => { l with stray := countUp l.stray }

/-- A taking of a frame whose status is OK and whose kind is one of a row's (R131): the frame leaves the queue; malformed, it is
counted (R97), and else it is acted on. With no such frame at the head the row does not occur (log entry 6). -/
def State.takeFrame (s : State) (d : Degree) (ofRow : Byte → Bool) (act : Frame → State → State) : State :=
  match (s.link d).rx with
  | f :: _ =>
    if f.status = .ok ∧ ofRow (kindByte f.bytes) then
      match parseFrame s.nodeId f.bytes with
      | some frame => act frame (s.removeHead d)
      | none => (s.removeHead d).countMalformed d
    else s
  | [] => s

/-- A well-formed frame other than PROBE (R98): it is taken for the live context with its lightpath ID where the context meets
the row of its kind, and else it is stray. -/
def State.forContext (s : State) (d : Degree) (frame : Frame) (row : Context → Bool)
    (effect : CtxIx → Context → State → State) : State :=
  match s.findLive frame.lightpathId with
  | some (i, c) => if row c then effect i c s else s.countStray d
  | none => s.countStray d

/-- RECEIVE_ERROR (R131): the taking of a frame whose status is not OK. -/
def execReceiveError (link : Degree) (s : State) : Host.Outcome State Fault Refusal :=
  .next (match (s.link link).rx with
    | f :: _ =>
      if f.status ≠ .ok then (s.removeHead link).modLink link fun l => { l with rxErrors := countUp l.rxErrors } else s
    | [] => s)

/-- UNKNOWN_FRAME_KIND (R181): the taking of a frame whose kind is none of the seven. It is malformed. -/
def execUnknownFrameKind (link : Degree) (s : State) : Host.Outcome State Fault Refusal :=
  .next (s.takeFrame link (fun k => k.toNat < 1 || 7 < k.toNat) fun _ t => t.countMalformed link)

/-! ## PROBE -/

/-- What a PROBE carries beyond its envelope, once it is well formed (R95). -/
structure Probe where
  hop : Nat
  run : Run
  window : Nat
  step : Nat
  length : Nat
  route : List Byte
  deriving DecidableEq, Repr

/-- The PROBE as a frame body, for a node's hop index. -/
def Probe.body (q : Probe) (hop : Nat) : FrameBody := .probe hop q.run.first q.run.width q.window q.step q.length q.route

/-- The route entry for this node (R27). -/
def Probe.entry (q : Probe) : Byte := q.route.getD q.hop 0

/-- The station of a degree's controller (R148). -/
def degreeStation (d : Degree) : Station := ⟨d.val + 1, by omega⟩

/-- The record that a PROBE creates (R27, R103, R104). -/
def probeContext (s : State) (q : Probe) (id : Word32) (owner : Station) (sides : Sides) (st : CtxState) : Context where
  state := st
  sides := sides
  adopted := false
  rampOnClear := none
  lightpathId := id
  owner := owner
  run := q.run
  hopIndex := some q.hop
  routeLength := some q.length
  route := none
  target := targetOf (s.point sides.point).density q.run.width
  window := q.window
  baseStep := some q.step
  step := some q.step
  attenuation := .block
  journal := []
  charge := none
  lastMeasured := none
  reference := none
  abortPending := none
  ending := none
  watchTimer := none

/-- A PROBE accepted on degree `d` as a transit toward degree `e` (R103), or refused SLOT_BUSY. -/
def State.probeTransit (s : State) (d e : Degree) (id : Word32) (q : Probe) (i : CtxIx) : State :=
  match s.conflict [ingressMap d, egressMap e] q.run with
  | some (k, _) => s.offer d id (.refuse .slotBusy s.nodeId q.hop (some k))
  | none =>
    ((s.writeRun [ingressMap d, egressMap e] q.run (.held i)).create i
      (probeContext s q id (degreeStation e) (.transit d e) .probing) .probing).offer e id (q.body (q.hop + 1))

/-- A PROBE accepted on degree `d` at the tail, with its drop port (R104), or refused SLOT_BUSY. -/
def State.probeTail (s : State) (d : Degree) (drop : Fin 16) (id : Word32) (q : Probe) (i : CtxIx) : State :=
  match s.conflict [ingressMap d] q.run with
  | some (k, _) => s.offer d id (.refuse .slotBusy s.nodeId q.hop (some k))
  | none =>
    ((s.writeRun [ingressMap d] q.run (.held i)).create i
      (probeContext s q id (degreeStation d) (.tail d drop) .reserved) .reserved).offer d id (.clear (q.length - 1))

/-- A well-formed PROBE taken on degree `d` (R102): the first cause that applies refuses it. -/
def State.takeProbe (s : State) (d : Degree) (id : Word32) (q : Probe) : State :=
  let refuse (cause : Cause) : State := s.offer d id (.refuse cause s.nodeId q.hop none)
  if !s.nodeOpen then refuse .nodeClosed
  else if (s.findLive id).isSome then refuse .duplicateId
  else match s.chooseRecord with
    | none => refuse .noContext
    | some i =>
      if q.hop + 1 < q.length then
        match degreeArg q.entry with
        | some e => if e = d ∨ (s.link e).state ≠ .up then refuse .routeInvalid else s.probeTransit d e id q i
        | none => s
      else match portArg q.entry with
        | some drop => s.probeTail d drop id q i
        | none => s

/-- PROBE (R102, R103, R104). -/
def execProbe (link : Degree) (s : State) : Host.Outcome State Fault Refusal :=
  .next (s.takeFrame link (· == 1) fun frame t =>
    match frame.body with
    | .probe hop first width window step length route =>
      t.takeProbe link frame.lightpathId ⟨hop, ⟨first, width⟩, window, step, length, route⟩
    | _ => t)

/-! ## CLEAR, REFUSE, LIGHT, LIT -/

/-- What a CLEAR does at a PROBING context (R105). -/
def State.takeClear (s : State) (i : CtxIx) (c : Context) : State :=
  let t := s.enter i c .reserved
  match c.sides with
  | .head _ _ => if c.rampOnClear = some true then t.joinLine i c else t
  | .transit d _ => t.offer d c.lightpathId (.clear (c.hopIndex.getD 0))
  | .tail _ _ => t

/-- The row of CLEAR (R98): the hop index is the context's k + 1. -/
def Context.meetsClear (c : Context) (d : Degree) (hop : Nat) : Bool :=
  c.sides.downstream == some d && c.state == .probing && c.hopIndex.any fun k => hop == k + 1

/-- CLEAR (R105). -/
def execClear (link : Degree) (s : State) : Host.Outcome State Fault Refusal :=
  .next (s.takeFrame link (· == 2) fun frame t =>
    match frame.body with
    | .clear hop => t.forContext link frame (fun c => c.meetsClear link hop) fun i c u => u.takeClear i c
    | _ => t)

/-- The end cause and detail that a REFUSE gives (R21, R106). -/
def refusedEnding (cause : Cause) (node : Word16) (hop : Nat) (slot : Option Nat) : Ending :=
  ⟨.refused, cause, node, some hop, slot, none⟩

/-- REFUSE (R106). -/
def execRefuse (link : Degree) (s : State) : Host.Outcome State Fault Refusal :=
  .next (s.takeFrame link (· == 3) fun frame t =>
    match frame.body with
    | .refuse cause node hop slot =>
      t.forContext link frame (fun c => c.sides.downstream == some link && c.state == .probing) fun i c u =>
        (u.endNeverLit i c (refusedEnding cause node hop slot)).offerTo c.sides.upstream c.lightpathId
          (.refuse cause node hop slot)
    | _ => t)

/-- LIGHT (R107). -/
def execLight (link : Degree) (s : State) : Host.Outcome State Fault Refusal :=
  .next (s.takeFrame link (· == 4) fun frame t =>
    t.forContext link frame (fun c => c.sides.upstream == some link && c.state == .reserved) fun i c u => u.joinLine i c)

/-- What a LIT does at a PASSED context (R11, R108). -/
def State.takeLit (s : State) (i : CtxIx) (c : Context) : State :=
  ((s.enter i c .inService).writeRun c.sides.mapsUsed c.run (.lit i)).offerTo c.sides.upstream c.lightpathId .lit

/-- LIT (R108). -/
def execLit (link : Degree) (s : State) : Host.Outcome State Fault Refusal :=
  .next (s.takeFrame link (· == 5) fun frame t =>
    t.forContext link frame (fun c => c.sides.downstream == some link && c.state == .passed) fun i c u => u.takeLit i c)

/-! ## ABORT and TEARDOWN -/

/-- The neighbour of a context that a frame from link `d` is passed on to (R109, R114): none where both neighbours lie on one
link. -/
def Sides.otherNeighbour (x : Sides) (d : Degree) : Option Degree :=
  if x.upstream = x.downstream then none else if x.upstream = some d then x.downstream else x.upstream

/-- The end cause and detail that an ABORT gives (R21, R109). -/
def remoteEnding (origin : Cause) (node : Word16) : Ending := ⟨.abortedRemote, origin, node, none, none, none⟩

/-- What an ABORT does at a live context (R75, R109, R110). -/
def State.takeAbort (s : State) (d : Degree) (i : CtxIx) (c : Context) (origin : Cause) (node : Word16) : State :=
  if c.abortIdle then s
  else (s.offerTo (c.sides.otherNeighbour d) c.lightpathId (.abort origin node)).abortEffect i c (remoteEnding origin node)

/-- ABORT (R109). -/
def execAbort (link : Degree) (s : State) : Host.Outcome State Fault Refusal :=
  .next (s.takeFrame link (· == 6) fun frame t =>
    match frame.body with
    | .abort origin node =>
      t.forContext link frame (fun c => c.sides.upstream == some link || c.sides.downstream == some link) fun i c u =>
        u.takeAbort link i c origin node
    | _ => t)

/-- What a TEARDOWN does at an IN_SERVICE context (R114). -/
def State.takeTeardown (s : State) (d : Degree) (i : CtxIx) (c : Context) : State :=
  (s.retireAtTail i c (s.localEnding c .completed) .hard).offerTo (c.sides.otherNeighbour d) c.lightpathId .teardown

/-- TEARDOWN (R114). -/
def execTeardown (link : Degree) (s : State) : Host.Outcome State Fault Refusal :=
  .next (s.takeFrame link (· == 7) fun frame t =>
    t.forContext link frame (fun c => c.sides.upstream == some link && c.state == .inService) fun i c u =>
      u.takeTeardown link i c)

end Sys2Proof.Machine
end

