-- ==== Sys2Proof/Machine/Dispatch.lean ====
section
/-! DEFINITION. The effect of each command and event: one arm a row of the table, one meaning an arm. -/

namespace Sys2Proof.Machine

def exec (i : Instr) (s : State) : Host.Outcome State Fault Refusal :=
  match i with
  | .readNode => Sys2Proof.Machine.execReadNode s
  | .readContext => Sys2Proof.Machine.execReadContext s
  | .nextChanged => Sys2Proof.Machine.execNextChanged s
  | .readMap => Sys2Proof.Machine.execReadMap s
  | .readPoint => Sys2Proof.Machine.execReadPoint s
  | .readLink => Sys2Proof.Machine.execReadLink s
  | .setAttentionMask => Sys2Proof.Machine.execSetAttentionMask s
  | .clearStation => Sys2Proof.Machine.execClearStation s
  | .configureNode => Sys2Proof.Machine.execConfigureNode s
  | .openNode => Sys2Proof.Machine.execOpenNode s
  | .closeNode => Sys2Proof.Machine.execCloseNode s
  | .setTiming => Sys2Proof.Machine.execSetTiming s
  | .setPoint => Sys2Proof.Machine.execSetPoint s
  | .setLockout => Sys2Proof.Machine.execSetLockout s
  | .linkControlEnable => Sys2Proof.Machine.execLinkControlEnable s
  | .linkControlDisable => Sys2Proof.Machine.execLinkControlDisable s
  | .barSlots => Sys2Proof.Machine.execBarSlots s
  | .unbarSlots => Sys2Proof.Machine.execUnbarSlots s
  | .forceDark => Sys2Proof.Machine.execForceDark s
  | .rereferencePoint => Sys2Proof.Machine.execRereferencePoint s
  | .adoptLightpath => Sys2Proof.Machine.execAdoptLightpath s
  | .beginLightpath => Sys2Proof.Machine.execBeginLightpath s
  | .startRamp => Sys2Proof.Machine.execStartRamp s
  | .teardownLightpath => Sys2Proof.Machine.execTeardownLightpath s
  | .abortLightpath => Sys2Proof.Machine.execAbortLightpath s
  | .releaseContext => Sys2Proof.Machine.execReleaseContext s
  | .unknownCommand => Sys2Proof.Machine.execUnknownCommand s
  | .write start data endMark => Sys2Proof.Machine.execWrite start data endMark s
  | .read start taken => Sys2Proof.Machine.execRead start taken s
  | .poll start => Sys2Proof.Machine.execPoll start s
  | .busClear => Sys2Proof.Machine.execBusClear s
  | .reset strap carriers => Sys2Proof.Machine.execReset strap carriers s
  | .carrierArrival link => Sys2Proof.Machine.execCarrierArrival link s
  | .carrierLoss link => Sys2Proof.Machine.execCarrierLoss link s
  | .frameCompletion link bytes => Sys2Proof.Machine.execFrameCompletion link bytes s
  | .frameDeparture link => Sys2Proof.Machine.execFrameDeparture link s
  | .receiveError link => Sys2Proof.Machine.execReceiveError link s
  | .probe link => Sys2Proof.Machine.execProbe link s
  | .clear link => Sys2Proof.Machine.execClear link s
  | .refuse link => Sys2Proof.Machine.execRefuse link s
  | .light link => Sys2Proof.Machine.execLight link s
  | .lit link => Sys2Proof.Machine.execLit link s
  | .abort link => Sys2Proof.Machine.execAbort link s
  | .teardown link => Sys2Proof.Machine.execTeardown link s
  | .sweepRecord bytes => Sys2Proof.Machine.execSweepRecord bytes s
  | .acknowledgement bytes => Sys2Proof.Machine.execAcknowledgement bytes s
  | .actuatorTimerExpiry point => Sys2Proof.Machine.execActuatorTimerExpiry point s
  | .settingTransmission => Sys2Proof.Machine.execSettingTransmission s
  | .watchTimerExpiry context => Sys2Proof.Machine.execWatchTimerExpiry context s
  | .sweepTimerExpiry point => Sys2Proof.Machine.execSweepTimerExpiry point s
  | .unknownFrameKind link => Sys2Proof.Machine.execUnknownFrameKind link s
  | .otherTargetAddressByte address => Sys2Proof.Machine.execOtherTargetAddressByte address s

end Sys2Proof.Machine
end

