-- ==== Sys2Proof/Machine/Time.lean ====
section
/-! DEFINITION. The passing of one millisecond, which the part lives through while no command waits. -/

namespace Sys2Proof.Machine

/-- A timer's remaining time a millisecond later (R34); a disarmed timer stays disarmed. -/
def countDown (t : Option Nat) : Option Nat := t.map fun n => n - 1

/-- A timer that is armed and whose remaining time has reached 0 has expired (R34). -/
def expired (t : Option Nat) : Bool := t == some 0

/-- A record a millisecond later. -/
def Context.countDown (c : Context) : Context := { c with watchTimer := Machine.countDown c.watchTimer }

/-- A point engine a millisecond later. -/
def Point.countDown (p : Point) : Point := { p with sweepTimer := Machine.countDown p.sweepTimer }

/-- An outstanding entry a millisecond later. -/
def Outstanding.countDown (e : Outstanding) : Outstanding := { e with timer := e.timer - 1 }

/-- The blocks a millisecond later, before any expiry is taken. -/
def State.later (s : State) : State :=
  { s with
    contexts := mapAll (Option.map Context.countDown) s.contexts
    points := mapAll Point.countDown s.points
    outstanding := mapAll (Option.map Outstanding.countDown) s.outstanding }

/-- The expiries that are due: of watch timers, of sweep timers and of actuator timers, each by index. The spec gives no order to
expiries of one millisecond; this one is the model's (log entry 3). -/
def State.expiries (s : State) : List Instr :=
  ((List.finRange 48).filter fun i => (s.context i).any fun c => expired c.watchTimer).map Instr.watchTimerExpiry ++
    ((List.finRange 16).filter fun p => expired (s.point p).sweepTimer).map Instr.sweepTimerExpiry ++
    ((List.finRange 16).filter fun p => (s.outstanding[p]).any fun e => e.timer == 0).map Instr.actuatorTimerExpiry

/-- DESIGN CHOICE (log entry 3). A millisecond passes: every armed timer counts down, and the expiries that are due wait to be
taken, each as an event of its own. -/
def tick (s : State) : State := { s.later with pending := s.pending ++ s.later.expiries }

end Sys2Proof.Machine
end

