-- ==== Sys2Proof/Safety.lean ====
section
/-! DEFINITION. What stands in every state the part reaches, in the terms the claims use: one predicate for each group of state, each
from the rules that state it. -/

namespace Sys2Proof.Machine

/-! ## Peer links (R124) -/

/-- A count of a link unit, which saturates at 65535 (00_scope.md, Counters). -/
def Link.countsSaturate (l : Link) : Prop :=
  l.rxErrors ≤ 65535 ∧ l.overruns ≤ 65535 ∧ l.malformed ≤ 65535 ∧ l.stray ≤ 65535 ∧ l.txDrops ≤ 65535

/-- A link unit by R124: the lengths of its queues and how they follow its state. UP and DRAINING need the carrier (R125, R126), and
DOWN is without it. -/
def Link.wellFormed (l : Link) : Prop :=
  l.rx.length ≤ 4 ∧ l.tx.length ≤ 8 ∧
  (l.state = .disabled ∨ l.state = .draining → l.rx = []) ∧
  (l.state = .down ∨ l.state = .disabled → l.tx = []) ∧
  (l.state = .draining → l.tx ≠ []) ∧
  (l.state = .up ∨ l.state = .draining → l.carrier = true) ∧
  (l.state = .down → l.carrier = false) ∧
  l.countsSaturate

/-- Every link unit is as R124 says; the counts of the two ports saturate (R137, R141). -/
def LinksWellFormed (s : State) : Prop :=
  (∀ d : Degree, (s.link d).wellFormed) ∧ s.sweepDiscards ≤ 65535 ∧ s.unmatchedAcks ≤ 65535

/-! ## The records of the context table (R20, R21, R34) -/

/-- An attenuation within its range: BLOCK, or 0 to 250 (R20). -/
def Atten.inRange : Atten → Bool
  | .block => true
  | .tenths n => n ≤ 250

/-- A journal that leads from one attenuation to another: each record starts where the one before ended, and none ends at BLOCK
or out of range (R20, R62). -/
def journalChain : Atten → List JournalRecord → Atten → Bool
  | a, [], b => a == b
  | a, r :: rest, b => r.before == a && r.after != .block && r.after.inRange && journalChain r.after rest b

/-- The record is charged in this state (R20, R53): from admission until the end of its darkening. -/
def CtxState.charged : CtxState → Bool
  | .ramping _ _ => true
  | .passed => true
  | .inService => true
  | .retiring _ _ => true
  | .probing => false
  | .reserved => false
  | .waitBudget => false
  | .ended => false

/-- The record holds an end cause in this state (R21). -/
def CtxState.ending : CtxState → Bool
  | .retiring _ _ => true
  | .ended => true
  | .probing => false
  | .reserved => false
  | .waitBudget => false
  | .ramping _ _ => false
  | .passed => false
  | .inService => false

/-- The watch timer is armed in this state (R34). -/
def CtxState.watched (st : CtxState) : Bool := st.timed.isSome

/-- A figure from 1 to `hi`, where it is present. -/
def optFrom1 (hi : Nat) (o : Option Nat) : Bool := o.all fun n => decide (1 ≤ n ∧ n ≤ hi)

/-- A non-FREE record by R20, R21 and R34. -/
def Context.wellFormed (c : Context) : Prop :=
  journalChain .block c.journal c.attenuation = true ∧ c.journal.length ≤ 16 ∧ c.attenuation.inRange = true ∧
  optFrom1 30 c.baseStep = true ∧ optFrom1 30 c.step = true ∧ 1 ≤ c.window ∧ c.window ≤ 20 ∧
  -300 ≤ c.target ∧ c.target ≤ 200 ∧ (c.state.backoffs.getD 0) ≤ 3 ∧
  c.charge.isSome = c.state.charged ∧ c.ending.isSome = c.state.ending ∧ c.watchTimer.isSome = c.state.watched ∧
  (c.lastMeasured.isSome = true → c.charge.isSome = true) ∧ (c.reference.isSome = true → c.charge.isSome = true)

/-- Every non-FREE record is as R20, R21 and R34 say. -/
def RecordsWellFormed (s : State) : Prop := ∀ i : CtxIx, ∀ c ∈ s.context i, c.wellFormed

/-! ## The table (R25, R30) -/

/-- The ended list holds exactly the ENDED records, none twice (R30), and no two live contexts share a lightpath ID (R25). -/
def TableConsistent (s : State) : Prop :=
  s.endedList.Nodup ∧
  (∀ i : CtxIx, i ∈ s.endedList ↔ ((s.context i).any fun c => c.state == .ended) = true) ∧
  (∀ i j : CtxIx, ∀ c ∈ s.context i, ∀ e ∈ s.context j,
    c.live = true → e.live = true → c.lightpathId = e.lightpathId → i = j)

/-! ## Slot maps against contexts (R3, R11) -/

/-- The context at index `i` is live and its run covers slot `k` of map `m` (R2, R3). -/
def State.holds (s : State) (i : CtxIx) (m : MapIx) (k : Nat) : Bool :=
  (s.context i).any fun c => c.live && c.sides.mapsUsed.contains m && c.run.covers k

/-- What an entry may show for a context in this state: HELD before service, LIT in service, either while it retires (R3, R11). -/
def CtxState.shows (st : CtxState) (i : CtxIx) : Slot → Bool
  | .held j => j == i && st != .inService
  | .lit j => j == i && match st with
    | .inService => true
    | .retiring _ _ => true
    | _ => false
  | .free => false
  | .barred => false

/-- The maps agree with the contexts (R3): a HELD or LIT entry names a live context that covers it, and every entry that a live
context covers shows that context. -/
def MapsAgree (s : State) : Prop :=
  ∀ (m : MapIx) (k : Fin 384) (i : CtxIx),
    ((s.slotAt m k.val = .held i ∨ s.slotAt m k.val = .lit i) → s.holds i m k.val = true) ∧
    (s.holds i m k.val = true → ∀ c ∈ s.context i, c.state.shows i (s.slotAt m k.val) = true)

/-! ## Load (R53) -/

/-- The charge of the record at an index, counted at a point (R53). -/
def State.chargeAt (s : State) (p : PointIx) (i : CtxIx) : Nat :=
  match s.context i with
  | some c => if c.point = p then c.charge.getD 0 else 0
  | none => 0

/-- The sum of the charges of the contexts charged at a point (R53). -/
def State.chargeSum (s : State) (p : PointIx) : Nat := ((List.finRange 48).map (s.chargeAt p)).sum

/-- At every point, the load equals the sum of the charges there and does not exceed the limit's linear value (R53). -/
def LoadAgrees (s : State) : Prop :=
  ∀ p : PointIx, (s.point p).load = s.chargeSum p ∧ (s.point p).load ≤ forward (s.point p).limit

/-! ## Points against contexts (R52, R55, R59, R141) -/

/-- The state has a context in the step queue (R59). -/
def CtxState.queued : CtxState → Bool
  | .ramping .queued _ => true
  | .retiring _ .queued => true
  | _ => false

/-- The state has a context hold the ramp lock (R24, R59). -/
def CtxState.holding : CtxState → Bool
  | .ramping sub _ => sub != .queued
  | .retiring _ sub => sub != .queued
  | _ => false

/-- The service request is ACTIVE. -/
def Service.isActive : Service → Bool
  | .active _ => true
  | .pending _ => false
  | .none => false

/-- Where a turn stands, by the holder's sub-state (R24, R52): whether its setting is outstanding, the settle count, and whether the
sweep timer is armed. -/
def phaseAgrees (st : CtxState) (outstanding : Bool) (settle : Nat) (armed : Bool) : Bool :=
  match st with
  | .ramping .actuating _ => outstanding && settle == 0 && !armed
  | .ramping .settling _ => !outstanding && (settle == 1 || settle == 2) && armed
  | .ramping .backoff _ =>
    (outstanding && settle == 0 && !armed) || (!outstanding && (settle == 1 || settle == 2) && armed)
  | .retiring _ .actuating => outstanding && settle == 0 && !armed
  | .retiring .gradual .settling => !outstanding && settle == 1 && armed
  | _ => false

/-- Some record at an index stands at a point in a state of a kind. -/
def State.stands (s : State) (p : PointIx) (i : CtxIx) (kind : CtxState → Bool) : Bool :=
  (s.context i).any fun c => c.point == p && kind c.state

/-- The turn in progress at a point agrees with its holder, or with its service request where it has none (R52, R92, R141). -/
def State.turnAgrees (s : State) (p : PointIx) : Bool :=
  match (s.point p).holder with
  | some i =>
    (s.context i).any fun c =>
      !(s.point p).service.isActive &&
        phaseAgrees c.state (s.isOutstanding p) (s.point p).settle (s.point p).sweepTimer.isSome
  | none =>
    s.isOutstanding p == (s.point p).service.isActive && (s.point p).settle == 0 && (s.point p).sweepTimer.isNone

/-- The contexts in WAIT_BUDGET at a point are exactly its budget line (R55), those queued are exactly its step queue and the one
that holds the lock is its holder (R59); nothing is listed twice; the turn in progress agrees with the holder; an abort is pending
only at a holder whose setting is outstanding (R20, R75). -/
def PointsConsistent (s : State) : Prop :=
  ∀ p : PointIx,
    (s.point p).line.Nodup ∧ (s.point p).queue.Nodup ∧
    (∀ i : CtxIx, i ∈ (s.point p).line ↔ s.stands p i (· == .waitBudget) = true) ∧
    (∀ i : CtxIx, i ∈ (s.point p).queue ↔ s.stands p i CtxState.queued = true) ∧
    (∀ i : CtxIx, (s.point p).holder = some i ↔ s.stands p i CtxState.holding = true) ∧
    s.turnAgrees p = true ∧
    (∀ i : CtxIx, ∀ c ∈ s.context i, c.point = p → c.abortPending.isSome = true →
      (s.point p).holder = some i ∧ s.isOutstanding p = true ∧ c.state.backoffs.isSome = true)

/-! ## Changed sets (R32) -/

/-- A changed set holds indices of non-FREE contexts alone, and a set of a station other than 0 those that the station owns
(R32). -/
def ChangedSetsOwned (s : State) : Prop :=
  ∀ (st : Station) (i : CtxIx), (s.changed[st])[i] = true →
    ((s.context i).any fun c => st == 0 || c.owner == st) = true

/-! ## Outstanding tags (R141) -/

/-- Tags in the outstanding table are distinct (R141). -/
def TagsDistinct (s : State) : Prop :=
  ∀ p q : PointIx, ∀ a ∈ s.outstanding[p], ∀ b ∈ s.outstanding[q], a.tag = b.tag → p = q

/-! ## Configuration (R35, R52, R158, R164) -/

/-- The timing table within its ranges (R35). -/
def Timing.inRange (t : Timing) : Prop :=
  (1 ≤ t.probeHop ∧ t.probeHop ≤ 10000) ∧ (1 ≤ t.reserveHold ∧ t.reserveHold ≤ 600000) ∧
  (1 ≤ t.lightHop ∧ t.lightHop ≤ 600000) ∧ (1 ≤ t.litHop ∧ t.litHop ≤ 600000) ∧
  (1000 ≤ t.budgetWait ∧ t.budgetWait ≤ 3600000) ∧ (10 ≤ t.actuatorWait ∧ t.actuatorWait ≤ 5000) ∧
  (100 ≤ t.sweepWait ∧ t.sweepWait ≤ 10000)

/-- The configuration is legal: the timing table (R35) and the points' limits, densities and guards (R52) within their ranges,
station 0 not locked out (R148), and an open node with a node ID (R164). -/
def ConfigurationLegal (s : State) : Prop :=
  s.timing.inRange ∧
  (∀ p : PointIx, (-400 ≤ (s.point p).limit ∧ (s.point p).limit ≤ 250) ∧
    (-300 ≤ (s.point p).density ∧ (s.point p).density ≤ 100) ∧ (1 ≤ (s.point p).guardTol ∧ (s.point p).guardTol ≤ 30)) ∧
  s.lockout[(0 : Station)] = false ∧ (s.nodeOpen = true → s.nodeId ≠ 0)

/-! ## The shelf bus (R150, R151) -/

/-- A command in an intake holds at most 64 bytes (R150). -/
def Intake.fits : Intake → Bool
  | .empty => true
  | .filling c => c.rest.length ≤ 63
  | .full c => c.rest.length ≤ 63

/-- Intakes hold at most 64 bytes; an intake is FILLING only while a WRITE of its station is in progress (R150), and a byte is
held only before an intake that is FULL (R151). -/
def BusConsistent (s : State) : Prop :=
  ∀ st : Station, (s.intakes[st]).fits = true ∧
    (∀ c, s.intakes[st] = .filling c → s.bus = .write st) ∧
    (∀ b e, s.bus = .held st b e → ∃ c, s.intakes[st] = .full c)

/-! ## What an execution starts from and how it answers -/

/-- The next execution takes a whole command of a station, with its code and its argument bytes (R152), and the station is not locked
out where the command changes the part's state (R158). -/
structure Executes (s : State) (st : Station) (code : Byte) (args : List Byte) : Prop where
  served : s.served = some (st, ⟨code, args, false, false⟩)
  notLocked : 0x10 ≤ code.toNat → st ≠ 0 → s.lockout[st] = false

/-- The byte of a station's WRITE that is held, with its END mark, if one is (R151). -/
def State.heldByte (s : State) (st : Station) : Option (Byte × Bool) :=
  match s.bus with
  | .held h x e => if h = st then some (x, e) else none
  | .idle => none
  | .discarding => none
  | .write _ => none
  | .read _ _ => none

/-- The state once the intake is taken: EMPTY, with its station the last-served (R152). Where a byte of the station is held, the hold
ends and the byte is stored: the intake is FILLING and the WRITE goes on (R151), and with the END mark the intake is FULL and the WRITE
has ended (log entry 7). -/
def State.taken (s : State) (st : Station) : State :=
  { s with
    intakes := put s.intakes st (match s.heldByte st with
      | none => .empty
      | some (x, e) => if e then .full ⟨x, [], false, false⟩ else .filling ⟨x, [], false, false⟩)
    bus := match s.heldByte st with
      | none => s.bus
      | some (_, e) => if e then .idle else .write st
    lastServed := st }

/-- The state with the reply ACCEPTED and its data in a station's holder (R152, R180). -/
def State.accepting (s : State) (st : Station) (code : Byte) (data : List Byte) : State :=
  { s with holders := put s.holders st (some ([0x00, code] ++ data)) }

/-- The state with a refusal in a station's holder (R152, R180). -/
def State.refusing (s : State) (st : Station) (code result : Byte) (detail : List Byte) : State :=
  { s with holders := put s.holders st (some ([result, code] ++ detail)) }

/-- The codes a row of the table executes (R180); UNKNOWN_COMMAND those that name no command. The two rows of LINK CONTROL share one
code and are told apart by the order byte (log entry 5). Rows that execute no command take none. -/
def takesCommand (i : Instr) (c : Command) : Bool :=
  match i with
  | .readNode => c.first == 0x01
  | .readContext => c.first == 0x02
  | .nextChanged => c.first == 0x03
  | .readMap => c.first == 0x04
  | .readPoint => c.first == 0x05
  | .readLink => c.first == 0x06
  | .setAttentionMask => c.first == 0x07
  | .clearStation => c.first == 0x08
  | .configureNode => c.first == 0x10
  | .openNode => c.first == 0x11
  | .closeNode => c.first == 0x12
  | .setTiming => c.first == 0x13
  | .setPoint => c.first == 0x14
  | .setLockout => c.first == 0x15
  | .linkControlEnable => c.first == 0x16 && c.rest[1]? != some 2
  | .linkControlDisable => c.first == 0x16 && c.rest[1]? != some 1
  | .barSlots => c.first == 0x18
  | .unbarSlots => c.first == 0x19
  | .forceDark => c.first == 0x1A
  | .rereferencePoint => c.first == 0x1B
  | .adoptLightpath => c.first == 0x1C
  | .beginLightpath => c.first == 0x20
  | .startRamp => c.first == 0x21
  | .teardownLightpath => c.first == 0x22
  | .abortLightpath => c.first == 0x23
  | .releaseContext => c.first == 0x24
  | .unknownCommand => !((1 ≤ c.first.toNat && c.first.toNat ≤ 8) || (0x10 ≤ c.first.toNat && c.first.toNat ≤ 0x16) ||
      (0x18 ≤ c.first.toNat && c.first.toNat ≤ 0x1C) || (0x20 ≤ c.first.toNat && c.first.toNat ≤ 0x24))
  | _ => false

/-- How many bytes the layout of a code asks for, the code included (R180); for BEGIN LIGHTPATH 13 and its route length, for which
seven bytes must be there. None for a byte that names no command. -/
def layoutLength (code : Byte) (args : List Byte) : Option Nat :=
  match code.toNat with
  | 0x01 => some 1 | 0x02 => some 6 | 0x03 => some 1 | 0x04 => some 6 | 0x05 => some 2 | 0x06 => some 3
  | 0x07 => some 2 | 0x08 => some 1 | 0x10 => some 3 | 0x11 => some 1 | 0x12 => some 1 | 0x13 => some 30
  | 0x14 => some 8 | 0x15 => some 3 | 0x16 => some 3 | 0x18 => some 6 | 0x19 => some 6 | 0x1A => some 5
  | 0x1B => some 2 | 0x1C => some 13 | 0x20 => (args[5]?).map fun l => 13 + l.toNat
  | 0x21 => some 5 | 0x22 => some 5 | 0x23 => some 5 | 0x24 => some 2
  | _ => none

/-- A byte that names a command (R180). -/
def namesCommand (code : Byte) : Bool := (layoutLength code (List.replicate 6 0)).isSome

/-- The command's byte count is that of its layout (R161, check 3; R180). -/
def lengthFits (code : Byte) (args : List Byte) : Bool := layoutLength code args == some (args.length + 1)

/-- A transaction that opens for the part as a station's, with its direction (R148, R149). -/
structure Addressed (s : State) (b : BusStart) (st : Station) (direction : BitVec 2) : Prop where
  target : s.strapAddress = some (addressTarget b.address)
  marked : b.sourceMarked = true
  station : sourceStation b.source = some st
  direction : addressDirection b.address = direction

/-- A transaction that opens for the part and that it discards (R149): the byte after the address byte is not marked, it names a station
above 8, or the direction code is none of the three. -/
structure Discarded (s : State) (b : BusStart) : Prop where
  target : s.strapAddress = some (addressTarget b.address)
  reason : b.sourceMarked = false ∨ 8 < b.source.toNat ∨ addressDirection b.address = 0

/-- The record that a creation chooses (R26): the lowest FREE index, or, with none FREE, the head of the ended list. -/
def Chooses (s : State) (i : CtxIx) : Prop :=
  (s.context i = none ∧ ∀ j < i, s.context j ≠ none) ∨ ((∀ j, s.context j ≠ none) ∧ s.endedList.head? = some i)

/-- Every slot of a run is FREE on every named map (R5). -/
def FreeOn (s : State) (ms : List MapIx) (r : Run) : Prop :=
  ∀ k, r.covers k = true → ∀ m ∈ ms, s.slotAt m k = .free

/-- No live context carries a lightpath ID (R25). -/
def NoneLive (s : State) (id : Word32) : Prop := ∀ i, ∀ c ∈ s.context i, c.live = true → c.lightpathId ≠ id

/-- The one live context that carries a lightpath ID (R25). -/
structure TheLive (s : State) (id : Word32) (i : CtxIx) (c : Context) : Prop where
  record : s.context i = some c
  live : c.live = true
  carries : c.lightpathId = id
  only : ∀ j, ∀ e ∈ s.context j, e.live = true → e.lightpathId = id → j = i

/-- A well-formed frame stands at the head of a link's receive queue with status OK (R97, R131). -/
def Heads (s : State) (d : Degree) (frame : Frame) : Prop :=
  ∃ f rest, (s.link d).rx = f :: rest ∧ f.status = .ok ∧ parseFrame s.nodeId f.bytes = some frame

/-- The fields of a known kind, as the bytes between the envelope and the check, are malformed: by R97, or by a declared length other than
the kind requires (R181). -/
def fieldsMalformed (kind : Byte) (f : List Byte) : Prop :=
  let b (k : Nat) : Nat := (f.getD k 0).toNat
  match kind.toNat with
  | 1 => f.length < 7 ∨ b 0 = 0 ∨ b 6 ≤ b 0 ∨ b 6 < 2 ∨ 32 < b 6 ∨ b 3 < 2 ∨ 16 < b 3 ∨ 383 < 256 * b 1 + b 2 ∨
      384 < 256 * b 1 + b 2 + b 3 ∨ f.length ≠ 7 + b 6 ∨ (∃ j, j + 1 < b 6 ∧ 7 < b (7 + j)) ∨ 15 < b (6 + b 6)
  | 2 => f.length ≠ 1 ∨ b 0 = 0 ∨ 31 < b 0
  | 3 => f.length ≠ 6 ∨ b 0 = 0 ∨ 5 < b 0 ∨ (b 1 = 0 ∧ b 2 = 0) ∨ b 3 = 0 ∨ 31 < b 3 ∨
      (b 0 = 5 ∧ 383 < 256 * b 4 + b 5) ∨ (b 0 ≠ 5 ∧ 256 * b 4 + b 5 ≠ 0xFFFF)
  | 6 => f.length ≠ 3 ∨ b 0 < 0x12 ∨ 0x19 < b 0 ∨ (b 1 = 0 ∧ b 2 = 0)
  | _ => f ≠ []

/-! ## How turns begin and end -/

/-- The tag that an offer gives (R143): the next tag value, or the first one after it, wrapping, that no outstanding entry holds. -/
def TagGiven (s : State) (tag : Byte) : Prop :=
  (∀ p : PointIx, ∀ e ∈ s.outstanding[p], e.tag ≠ tag) ∧
  ∃ n, n ≤ 16 ∧ tag = s.nextTag + BitVec.ofNat 8 n ∧
    ∀ m, m < n → ∃ p : PointIx, ∃ e ∈ s.outstanding[p], e.tag = s.nextTag + BitVec.ofNat 8 m

/-- The record of a context once a retirement turn of a mode has begun: GRADUAL takes the newest journal record off and restores the
attenuation it came from (R81), HARD empties the journal and orders BLOCK (R85). -/
def Context.turned (c : Context) : Mode → Context
  | .gradual => { c with
      journal := c.journal.dropLast
      attenuation := match c.journal.getLast? with
        | some r => r.before
        | none => .block }
  | .hard => { c with journal := [], attenuation := .block }

/-- The setting of a retirement turn (R81, R85): a BLOCK, or an ATTEN SET of a numeric attenuation. -/
def Context.turnSetting (c : Context) : SettingBody :=
  match c.attenuation with
  | .block => .block
  | .tenths n => .attenSet n

/-- The holder `i` has begun a retirement turn of a mode (R81, R85). -/
def State.turnBegun (s : State) (p : PointIx) (i : CtxIx) (c : Context) (m : Mode) : State :=
  (s.setContext i (some { c.turned m with state := .retiring m .actuating })).offerSetting p c.run (c.turned m).turnSetting

/-- The holder `i` has entered RETIRING in a mode with its end cause, its settle given up (log entry 11), and has begun the turn of that
mode (R72, R75, R76, R79). -/
def State.holderRetired (s : State) (p : PointIx) (i : CtxIx) (c : Context) (e : Ending) (m : Mode) : State :=
  ((s.modPoint p fun q => { q with settle := 0, sweepTimer := none }).enter i
    { c.turned m with abortPending := none, ending := some e } (.retiring m .actuating)).offerSetting p c.run
      (c.turned m).turnSetting

/-- The turn of the holder `i` has ended in a fault (R72): ABORT to the neighbours, and RETIRING in the mode of the fault. -/
def State.faulted (s : State) (p : PointIx) (i : CtxIx) (c : Context) (f : Cause) : State :=
  ((s.offerTo c.sides.upstream c.lightpathId (.abort f s.nodeId)).offerTo c.sides.downstream c.lightpathId
    (.abort f s.nodeId)).holderRetired p i c ⟨f, f, s.nodeId, c.hopIndex, none, none⟩
      (if f = .guardFault ∨ f = .reachShort ∨ f = .overReach then .gradual else .hard)

/-- From `s`, where `i` holds the lock of `p`, the turn of `i` has settled on the value `m`, up to the lock grant that follows (R70). -/
structure Settles (s t : State) (p : PointIx) (i : CtxIx) (c : Context) (m : Measured) : Prop where
  /-- the reference, and PASSED with its watch timer (R34), or IN_SERVICE at a tail -/
  record : t.context i = some { c with
    state := if c.sides.role = .tail then .inService else .passed
    watchTimer := if c.sides.role = .tail then none
      else some (min 86400000 (s.timing.litHop * (c.routeLength.getD 0 - 1 - c.hopIndex.getD 0)))
    reference := some ⟨m.power, m.floor⟩ }
  /-- the other charged PASSED and IN_SERVICE contexts at the point take their own last measured values -/
  others : ∀ j, j ≠ i → t.context j = (s.context j).map fun x =>
    if x.point = p ∧ (x.state = .passed ∨ x.state = .inService) ∧ x.charge ≠ none ∧ x.lastMeasured ≠ none then
      { x with reference := x.lastMeasured.map fun v => ⟨v.power, v.floor⟩ } else x
  /-- the lock is released -/
  point : t.point p = { s.point p with holder := none }
  points : ∀ q, q ≠ p → t.point q = s.point q
  /-- a tail's run turns LIT (R11) -/
  slots : ∀ (n : MapIx) (k : Nat), k < 384 → t.slotAt n k =
    if c.sides.role = .tail ∧ n ∈ c.sides.mapsUsed ∧ c.run.covers k = true then .lit i else s.slotAt n k
  /-- the change is notified (R32) -/
  changed : ∀ (x : Station) (j : CtxIx), (t.changed[x])[j] = if j = i ∧ (x = 0 ∨ x = c.owner) then true else (s.changed[x])[j]
  /-- LIGHT is offered downstream, or, at a tail, LIT upstream -/
  links : t.links = ((if c.sides.role = .tail then s.offerTo c.sides.upstream c.lightpathId .lit
    else s.offerTo c.sides.downstream c.lightpathId .light) : State).links
  rest : { t with contexts := s.contexts, points := s.points, maps := s.maps, changed := s.changed, links := s.links } = s

/-- The guard of a point is kept over the charged contexts other than the holder that have a reference without the floor mark (R50). -/
def GuardKept (s : State) (p : PointIx) (i : CtxIx) : Prop :=
  ∀ j x m r, j ≠ i → s.context j = some x → x.point = p → x.charge ≠ none → x.lastMeasured = some m → x.reference = some r →
    r.floor = false → (m.power - r.power).natAbs ≤ (s.point p).guardTol

/-- The context at `i` holds the lock of a point (R52). -/
structure HolderAt (s : State) (p : PointIx) (i : CtxIx) (c : Context) : Prop where
  holder : (s.point p).holder = some i
  noService : ∀ r, (s.point p).service ≠ .active r
  record : s.context i = some c

/-- An event delivers an outcome of the setting outstanding at a point, and `u` is the state without its entry: an acknowledgement of its
tag, which no other entry holds (R144), or the expiry of its actuator timer, which withdraws the setting where it still waits to be sent
(R146; the last one that carries the tag, log entry 9). -/
def Delivers (s : State) (p : PointIx) (event : Instr) (o : SettingOutcome) (u : State) : Prop :=
  ∃ e, s.outstanding[p] = some e ∧
    ((event = .acknowledgement [e.tag, 0] ∧ o = .ok ∨ event = .acknowledgement [e.tag, 1] ∧ o = .reject) ∧
        (∀ q : PointIx, ∀ x ∈ s.outstanding[q], x.tag = e.tag → q = p) ∧ u = { s with outstanding := put s.outstanding p none } ∨
      event = .actuatorTimerExpiry p ∧ o = .timeout ∧ e.timer = 0 ∧
        ∃ w, u = { s with outstanding := put s.outstanding p none, toSend := w } ∧
          ((∀ m ∈ s.toSend, m.tag ≠ e.tag) ∧ w = s.toSend ∨
            ∃ a m b, s.toSend = a ++ m :: b ∧ m.tag = e.tag ∧ (∀ x ∈ b, x.tag ≠ e.tag) ∧ w = a ++ b))

/-- What the outcome of the setting of a holder that ramps or retires GRADUAL does (R64, R69, R75, R82), but for the OK of a gradual
BLOCK, which ends the darkening. -/
def OutcomeActs (u : State) (p : PointIx) (i : CtxIx) (c : Context) (o : SettingOutcome) (t : State) : Prop :=
  (∀ sub b, c.state = .ramping sub b → c.abortPending = none →
    (o = .ok → t = (u.setContext i (some { c with
        state := .ramping (if sub = .backoff then .backoff else .settling) b })).modPoint p fun q =>
          { q with settle := 2, sweepTimer := some u.timing.sweepWait }) ∧
    (o = .reject → t = u.faulted p i c .actuatorReject) ∧ (o = .timeout → t = u.faulted p i c .actuatorTimeout)) ∧
  (∀ sub b e, c.state = .ramping sub b → c.abortPending = some e →
    t = u.holderRetired p i c e (if o = .ok then .gradual else .hard)) ∧
  (∀ x, c.state = .retiring .gradual x →
    (∀ n, o = .ok → c.attenuation = .tenths n → t = (u.setContext i (some { c with
        state := .retiring .gradual .settling })).modPoint p fun q => { q with settle := 1, sweepTimer := some u.timing.sweepWait }) ∧
    (o ≠ .ok → t = u.turnBegun p i c .hard))

/-- Every block as a reset leaves it (R18, R35, R39, R52, R78, R124, R135, R141, R147, R159, R160), with the strap inputs and the
carrier-present inputs as given. -/
structure AfterReset (strap : BitVec 3) (carriers : BitVec 8) (t : State) : Prop where
  maps : ∀ (m : MapIx) (k : Nat), k < 384 → t.slotAt m k = .free
  contexts : ∀ i, t.context i = none
  endedList : t.endedList = []
  points : ∀ p, t.point p = ⟨200, -70, 5, 0, [], [], none, .none, none, 0, none, none⟩
  links : ∀ d, t.link d = ⟨.disabled, carriers.getLsbD d.val, [], [], false, 0, 0, 0, 0, 0⟩
  sweepDiscards : t.sweepDiscards = 0
  outstanding : ∀ p : PointIx, t.outstanding[p] = none
  nextTag : t.nextTag = 0
  unmatchedAcks : t.unmatchedAcks = 0
  toSend : t.toSend = []
  sending : t.sending = none
  strap : t.strap = strap
  bus : t.bus = .idle
  intakes : ∀ st : Station, t.intakes[st] = .empty
  holders : ∀ st : Station, t.holders[st] = none
  masks : ∀ st : Station, t.masks[st] = 0
  changed : ∀ (st : Station) (i : CtxIx), (t.changed[st])[i] = false
  lockout : ∀ st : Station, t.lockout[st] = false
  nodeId : t.nodeId = 0
  nodeOpen : t.nodeOpen = false
  timing : t.timing = ⟨500, 60000, 120000, 120000, 300000, 250, 2000⟩
  alerts : t.alerts = ⟨false, false, false, false, false⟩
  lastServed : t.lastServed = 8
  attention : ∀ st, t.attentionByte st = 0
  attentionLine : t.attentionLine = false

end Sys2Proof.Machine
end

