-- ==== Sys2Proof/Certificates/Slice0/Obligations.lean ====
section
/-! DEFINITION. The statements about the part, for the provers. -/

open Sys2Proof Sys2Proof.Machine

/-! ## The step and reset -/

/-- A step takes the command at the front of the queue and runs it with the rest of the queue. The first-in first-out queue of commands is
the model's own (log entries 13 and 15), beside the spec's list of indivisible steps. -/
def Obligations.StepRunsTheFrontCommand : Prop :=
  ∀ (c : Instr) (rest : List Instr) (s : State),
    step { s with pending := c :: rest } = exec c { s with pending := rest }

/-- With no command waiting, a step is one millisecond (the model's choice, log entry 3): every armed timer counts down by one (R34), the
expiries that are due wait in the queue, each once, and nothing else changes. -/
def Obligations.IdleStepPassesAMillisecond : Prop :=
  ∀ s : State, s.pending = [] → ∃ t : State, step s = .next t ∧
    { t with contexts := s.contexts, points := s.points, outstanding := s.outstanding, pending := [] } = s ∧
    (∀ i, t.context i = (s.context i).map fun c => { c with watchTimer := c.watchTimer.map (· - 1) }) ∧
    (∀ p, t.point p = { s.point p with sweepTimer := (s.point p).sweepTimer.map (· - 1) }) ∧
    (∀ p : PointIx, t.outstanding[p] = s.outstanding[p].map fun e => { e with timer := e.timer - 1 }) ∧
    t.pending.Nodup ∧
    ∀ c, c ∈ t.pending ↔
      (∃ i, c = .watchTimerExpiry i ∧ ∃ r ∈ s.context i, r.watchTimer = some 0 ∨ r.watchTimer = some 1) ∨
      (∃ p, c = .sweepTimerExpiry p ∧ ((s.point p).sweepTimer = some 0 ∨ (s.point p).sweepTimer = some 1)) ∨
      (∃ p : PointIx, c = .actuatorTimerExpiry p ∧ ∃ e ∈ s.outstanding[p], e.timer ≤ 1)

/-- RESET leaves every block in its reset state, with the strap inputs and the carriers as they stand (R18, R39, R78, R135, R147, R159,
R160). -/
def Obligations.ResetCommandResetsEveryBlock : Prop :=
  ∀ (strap : BitVec 3) (carriers : BitVec 8) (s : State),
    ∃ t, exec (.reset strap carriers) s = .next t ∧ AfterReset strap carriers t

/-! ## The shelf bus -/

/-- A WRITE stores its bytes in the station's EMPTY intake, 64 of them at most, further ones marking the command overlength; the END mark
makes the intake FULL, and without it the intake is FILLING and the WRITE goes on, in a later event too, be the intake FILLING or, after an
opening without a byte, still EMPTY; without a byte it leaves the intake as it is (R150). The bytes of a WRITE that the part discards change
nothing, and its END mark ends it (R149); where no WRITE is in progress there is no byte to take, nor while one is held (log entry 7). -/
def Obligations.WriteFillsTheIntake : Prop :=
  (∀ (s : State) (b : BusStart) (st : Station) (x : Byte) (xs : List Byte) (e : Bool),
    Addressed s b st 1 → s.endTransaction.intakes[st] = .empty →
    exec (.write (some b) (x :: xs) e) s = .next { s.endTransaction with
      intakes := put s.endTransaction.intakes st
        (if e then .full ⟨x, xs.take 63, decide (63 < xs.length), false⟩
          else .filling ⟨x, xs.take 63, decide (63 < xs.length), false⟩)
      bus := if e then .idle else .write st }) ∧
  (∀ (s : State) (b : BusStart) (st : Station) (e : Bool), Addressed s b st 1 →
    exec (.write (some b) [] e) s = .next { s.endTransaction with bus := .write st }) ∧
  (∀ (s : State) (st : Station) (x : Byte) (xs : List Byte) (e : Bool),
    s.bus = .write st → s.intakes[st] = .empty →
    exec (.write none (x :: xs) e) s = .next { s with
      intakes := put s.intakes st
        (if e then .full ⟨x, xs.take 63, decide (63 < xs.length), false⟩
          else .filling ⟨x, xs.take 63, decide (63 < xs.length), false⟩)
      bus := if e then .idle else .write st }) ∧
  (∀ (s : State) (st : Station) (e : Bool), s.bus = .write st → exec (.write none [] e) s = .next s) ∧
  (∀ (s : State) (st : Station) (c : Command) (x : Byte) (xs : List Byte) (e : Bool),
    s.bus = .write st → s.intakes[st] = .filling c → c.rest.length ≤ 63 →
    exec (.write none (x :: xs) e) s = .next { s with
      intakes := put s.intakes st
        (if e then .full { c with
            rest := (c.rest ++ x :: xs).take 63
            overlength := c.overlength || decide (63 < (c.rest ++ x :: xs).length) }
          else .filling { c with
            rest := (c.rest ++ x :: xs).take 63
            overlength := c.overlength || decide (63 < (c.rest ++ x :: xs).length) })
      bus := if e then .idle else .write st }) ∧
  (∀ (s : State) (b : BusStart) (data : List Byte) (e : Bool), Discarded s b →
    exec (.write (some b) data e) s = .next { s.endTransaction with
      bus := if e = true ∧ data ≠ [] then .idle else .discarding }) ∧
  (∀ (s : State) (data : List Byte) (e : Bool),
    (s.bus = .discarding → exec (.write none data e) s = .next { s with
      bus := if e = true ∧ data ≠ [] then .idle else .discarding }) ∧
    (s.bus ≠ .discarding → (∀ st, s.bus ≠ .write st) → exec (.write none data e) s = .next s))

/-- The first byte of a WRITE to a FULL intake is held, in its opening event or in a later one, and nothing is stored (R151); in the event
in which that intake is executed, whatever the command, the held byte is stored and the intake moves to FILLING. Every statement about an
execution says its effect on `State.taken`, the state with the intake taken, which the last two clauses spell with a byte of the station
held and without one; so each covers the held byte. That a held byte with the END mark makes the intake FULL, and that the bytes behind a
held byte are not presented in that event, are the model's reading (log entry 7). -/
def Obligations.FullIntakeHoldsOffAWrite : Prop :=
  (∀ (s : State) (b : BusStart) (st : Station) (c : Command) (x : Byte) (xs : List Byte) (e : Bool),
    Addressed s b st 1 → s.endTransaction.intakes[st] = .full c →
    exec (.write (some b) (x :: xs) e) s =
      .next { s.endTransaction with bus := .held st x (e && xs.isEmpty) }) ∧
  (∀ (s : State) (st : Station) (c : Command) (x : Byte) (xs : List Byte) (e : Bool),
    s.bus = .write st → s.intakes[st] = .full c →
    exec (.write none (x :: xs) e) s = .next { s with bus := .held st x (e && xs.isEmpty) }) ∧
  (∀ (i : Instr) (s : State) (st : Station) (c : Command) (x : Byte) (e : Bool),
    s.served = some (st, c) → takesCommand i c = true → s.bus = .held st x e →
    ∃ t, exec i s = .next t ∧
      t.intakes = put s.intakes st (if e then .full ⟨x, [], false, false⟩ else .filling ⟨x, [], false, false⟩) ∧
      t.bus = if e then .idle else .write st) ∧
  (∀ (s : State) (st : Station) (x : Byte) (e : Bool), s.bus = .held st x e → s.taken st = { s with
    intakes := put s.intakes st (if e then .full ⟨x, [], false, false⟩ else .filling ⟨x, [], false, false⟩)
    bus := if e then .idle else .write st
    lastServed := st }) ∧
  (∀ (s : State) (st : Station), (∀ x e, s.bus ≠ .held st x e) →
    s.taken st = { s with intakes := put s.intakes st .empty, lastServed := st })

/-- A marked address byte ends the transaction the part is in (R149): a FILLING intake becomes FULL and marked truncated (R150), and nothing
else changes. One that names another target does no more, whatever transaction it opens. That the event OTHER_TARGET_ADDRESS_BYTE does this
whatever address its operand carries, the part's own included, is the model's reading (log entry 17). The strap address is 8 and the strap
value, and none at strap value 0 (R148); an address byte carries its target in bits 7 to 4 and its direction in bits 3 and 2 (R180); a
source byte names station 0 to 8 by its number, and a larger one names none (R149). -/
def Obligations.AddressByteEndsTheTransaction : Prop :=
  (∀ (s : State) (st : Station) (c : Command) (a : Byte), s.bus = .write st → s.intakes[st] = .filling c →
    exec (.otherTargetAddressByte a) s = .next { s with
      bus := .idle, intakes := put s.intakes st (.full { c with truncated := true }) }) ∧
  (∀ (s : State) (a : Byte), (∀ st, s.bus = .write st → ∀ c, s.intakes[st] ≠ .filling c) →
    exec (.otherTargetAddressByte a) s = .next { s with bus := .idle }) ∧
  (∀ (s : State) (b : BusStart), s.strapAddress ≠ some (addressTarget b.address) →
    exec (.poll b) s = exec (.otherTargetAddressByte b.address) s ∧
    (∀ n, exec (.read (some b) n) s = exec (.otherTargetAddressByte b.address) s) ∧
    (∀ data e, exec (.write (some b) data e) s = exec (.otherTargetAddressByte b.address) s)) ∧
  (∀ (s : State) (a : Byte), exec (.otherTargetAddressByte a) s = .next s.endTransaction) ∧
  (∀ s : State, (s.strap = 0 → s.strapAddress = none) ∧
    (s.strap ≠ 0 → ∃ a, s.strapAddress = some a ∧ a.toNat = 8 + s.strap.toNat)) ∧
  (∀ a : Byte, (addressTarget a).toNat = a.toNat / 16 ∧ (addressDirection a).toNat = a.toNat / 4 % 4) ∧
  (∀ b : Byte, (8 < b.toNat → sourceStation b = none) ∧ ∀ st : Station, b.toNat = st.val → sourceStation b = some st)

/-- A READ takes the reply out of the station's holder, or NONE where it is empty, and delivers it a byte at a time with the END mark on its
last byte (R153); the rest of the transfer stands while the station has not taken it, and a later event goes on with it. A READ that the
part discards changes no holder (R149), and that it delivers no byte is the model's choice (log entry 19); where no READ is in progress
there is no byte to take (log entry 6). -/
def Obligations.ReadDeliversTheReply : Prop :=
  (∀ (s : State) (b : BusStart) (st : Station) (n : Nat) (reply : List Byte),
    Addressed s b st 2 → s.endTransaction.holders[st].getD [0xFF] = reply → reply ≠ [] →
    (n < reply.length → exec (.read (some b) n) s = .next { s.endTransaction with
      holders := put s.endTransaction.holders st none
      bus := .read st (reply.drop n)
      outputs := s.outputs ++ (reply.take n).map fun x => .readByte st x false }) ∧
    (reply.length ≤ n → exec (.read (some b) n) s = .next { s.endTransaction with
      holders := put s.endTransaction.holders st none
      bus := .idle
      outputs := s.outputs ++ reply.dropLast.map (fun x => .readByte st x false) ++
        (reply.getLast?.map fun x => Output.readByte st x true).toList })) ∧
  (∀ (s : State) (st : Station) (n : Nat) (rest : List Byte), s.bus = .read st rest → rest ≠ [] →
    (n < rest.length → exec (.read none n) s = .next { s with
      bus := .read st (rest.drop n)
      outputs := s.outputs ++ (rest.take n).map fun x => .readByte st x false }) ∧
    (rest.length ≤ n → exec (.read none n) s = .next { s with
      bus := .idle
      outputs := s.outputs ++ rest.dropLast.map (fun x => .readByte st x false) ++
        (rest.getLast?.map fun x => Output.readByte st x true).toList })) ∧
  (∀ (s : State) (b : BusStart) (n : Nat), Discarded s b →
    exec (.read (some b) n) s = .next { s.endTransaction with bus := .discarding }) ∧
  (∀ (s : State) (n : Nat), (∀ st rest, s.bus ≠ .read st rest) → exec (.read none n) s = .next s)

/-- A POLL delivers the station's attention byte as it stands and clears nothing (R154): REPLY in bit 0, CHANGED in bit 1, LOCKED in bit 2,
ALERT in bit 3, bits 7 to 4 clear (R180). The attention line is asserted exactly while some station has a bit set in both its attention byte
and its mask (R155). A POLL that the part discards delivers nothing (R149; log entry 19). -/
def Obligations.PollDeliversTheAttentionByte : Prop :=
  (∀ (s : State) (b : BusStart) (st : Station), Addressed s b st 3 →
    exec (.poll b) s = .next { s.endTransaction with outputs := s.outputs ++ [.pollByte st (s.attentionByte st)] }) ∧
  (∀ (s : State) (st : Station),
    ((s.attentionByte st).getLsbD 0 = true ↔ s.holders[st] ≠ none) ∧
    ((s.attentionByte st).getLsbD 1 = true ↔ ∃ i : CtxIx, (s.changed[st])[i] = true) ∧
    ((s.attentionByte st).getLsbD 2 = true ↔ st ≠ 0 ∧ s.lockout[st] = true) ∧
    ((s.attentionByte st).getLsbD 3 = true ↔ st = 0 ∧ s.alerts ≠ ⟨false, false, false, false, false⟩) ∧
    ∀ k, 4 ≤ k → (s.attentionByte st).getLsbD k = false) ∧
  (∀ s : State, s.attentionLine = true ↔
    ∃ (st : Station) (k : Nat), (s.attentionByte st).getLsbD k = true ∧ (s.masks[st]).getLsbD k = true) ∧
  (∀ (s : State) (b : BusStart), Discarded s b → exec (.poll b) s = .next { s.endTransaction with bus := .discarding })

/-- The bus clear line ends the transaction, empties every intake and every reply holder, and changes nothing else (R156). -/
def Obligations.BusClearEmptiesIntakesAndHolders : Prop :=
  ∀ s : State, ∃ t, exec .busClear s = .next t ∧ t.bus = .idle ∧
    (∀ st : Station, t.intakes[st] = .empty ∧ t.holders[st] = none) ∧
    { t with bus := s.bus, intakes := s.intakes, holders := s.holders } = s

/-! ## The execution of a command -/

/-- The round-robin serves the first FULL intake in the order that starts after the last-served station and wraps from 8 to 0 (R152). In the
event of the execution the served station becomes the last-served, its intake EMPTY where no byte is held there, and its holder takes the
reply; no other station's intake changes. -/
def Obligations.RoundRobinServesTheFirstFullIntake : Prop :=
  (∀ (s : State) (st : Station) (c : Command), s.served = some (st, c) ↔
    s.intakes[st] = .full c ∧
      ∀ x : Station, (x.val + 8 - s.lastServed.val) % 9 < (st.val + 8 - s.lastServed.val) % 9 →
        ∀ e, s.intakes[x] ≠ .full e) ∧
  (∀ (i : Instr) (s : State) (st : Station) (c : Command), s.served = some (st, c) → takesCommand i c = true →
    ∃ t, exec i s = .next t ∧ t.lastServed = st ∧ t.holders[st] ≠ none ∧
      ((∀ x e, s.bus ≠ .held st x e) → t.intakes = put s.intakes st .empty ∧ t.bus = s.bus) ∧
      ∀ x : Station, x ≠ st → t.intakes[x] = s.intakes[x])

/-- A refused command changes nothing in the part except the issuing station's holder, beside the taking of its intake (R152, R161):
whatever the row, an execution that does not answer ACCEPTED leaves the rest as it stands. -/
def Obligations.RefusedCommandChangesOnlyTheHolder : Prop :=
  ∀ (i : Instr) (s t : State) (st : Station) (c : Command),
    s.served = some (st, c) → takesCommand i c = true → exec i s = .next t →
    (∀ data, t.holders[st] ≠ some (0x00 :: data)) →
    ∃ reply, t = { s.taken st with holders := put s.holders st (some reply) }

/-- The general checks, in their order (R161): a damaged write is refused with MALFORMED, then a byte that names no command with
UNKNOWN_COMMAND, then a wrong length with MALFORMED, then a state-changing command of a locked station with LOCKED (R158). A whole command
whose first byte names no command is what the row UNKNOWN_COMMAND executes, and a command that station 0 alone may issue is refused with
NOT_PERMITTED to any other station that is not locked out (R162). None changes anything but the issuing station's holder. -/
def Obligations.GeneralChecksRefuseInOrder : Prop :=
  (∀ (i : Instr) (s : State) (st : Station) (c : Command), s.served = some (st, c) → takesCommand i c = true →
    (c.overlength = true ∨ c.truncated = true →
      exec i s = .next ((s.taken st).refusing st c.first 0x04 [])) ∧
    (c.overlength = false → c.truncated = false → namesCommand c.first = false →
      exec i s = .next ((s.taken st).refusing st c.first 0x0F [])) ∧
    (c.overlength = false → c.truncated = false → namesCommand c.first = true → lengthFits c.first c.rest = false →
      exec i s = .next ((s.taken st).refusing st c.first 0x04 [])) ∧
    (c.overlength = false → c.truncated = false → namesCommand c.first = true → lengthFits c.first c.rest = true →
      st ≠ 0 → s.lockout[st] = true → 0x10 ≤ c.first.toNat →
      exec i s = .next ((s.taken st).refusing st c.first 0x02 []))) ∧
  (∀ (s : State) (st : Station) (code : Byte) (args : List Byte), Executes s st code args → namesCommand code = false →
    exec .unknownCommand s = .next ((s.taken st).refusing st code 0x0F [])) ∧
  (∀ (i : Instr) (s : State) (st : Station) (code : Byte) (args : List Byte), Executes s st code args → st ≠ 0 →
    0x10 ≤ code.toNat → code.toNat ≤ 0x1C → lengthFits code args = true →
    takesCommand i ⟨code, args, false, false⟩ = true →
    exec i s = .next ((s.taken st).refusing st code 0x01 []))

/-! ## Reading commands -/

/-- READ NODE answers with the node configuration, the counts and the timing table, and clears all five alert flags after the reply has been
formed (R175, R180). The live count is the number of records that are neither FREE nor ENDED (R23, R175). -/
def Obligations.ReadNodeReportsAndClearsAlerts : Prop :=
  (∀ c : Context, c.live = true ↔ c.state ≠ .ended) ∧
  (∀ s : State, s.liveCount = (List.finRange 48).countP fun i => (s.context i).any fun c => c.state != .ended) ∧
  ∀ (s : State) (st : Station), Executes s st 0x01 [] →
    ∃ flags : Byte, exec .readNode s = .next ({ s.taken st with alerts := ⟨false, false, false, false, false⟩ }.accepting
        st 0x01 (bytes16 s.nodeId ++ [if s.nodeOpen then 1 else 0, byte s.liveCount, byte s.endedList.length, flags] ++
          nat16 s.sweepDiscards ++ nat16 s.unmatchedAcks ++ nat32 s.timing.probeHop ++ nat32 s.timing.reserveHold ++
          nat32 s.timing.lightHop ++ nat32 s.timing.litHop ++ nat32 s.timing.budgetWait ++ nat32 s.timing.actuatorWait ++
          nat32 s.timing.sweepWait)) ∧
      flags.getLsbD 0 = s.alerts.overrun ∧ flags.getLsbD 1 = s.alerts.linkDown ∧ flags.getLsbD 2 = s.alerts.monitor ∧
      flags.getLsbD 3 = s.alerts.actuator ∧ flags.getLsbD 4 = s.alerts.darkUnconfirmed ∧
      ∀ k, 5 ≤ k → flags.getLsbD k = false

/-- READ CONTEXT answers with the block of the record it names and changes nothing (R38): by index; by the ID of a live record; by the ID of
the ENDED record that ended last; with the not-found mark; and an index above 47 is refused with BAD_ARGUMENT (R173); that a selector kind
above 1 is too is the model's reading (log entry 16). The block of a FREE record is its index and 0; that of another is 48 bytes, its
journal, and its route where it has one, in the layout of R180, with the codes of R179. That the ramp-on-clear bit of a record that has none
is 0, and that a reference's marks byte has no saturated bit, is the model's reading (log entry 10). -/
def Obligations.ReadContextFindsTheRecord : Prop :=
  (∀ (s : State) (st : Station) (kind : Byte) (v : Word32), Executes s st 0x02 (kind :: bytes32 v) → 1 < kind.toNat →
    exec .readContext s = .next ((s.taken st).refusing st 0x02 0x05 [])) ∧
  (∀ (s : State) (st : Station) (v : Word32),
    (Executes s st 0x02 (0 :: bytes32 v) →
      (∀ i : CtxIx, v.toNat = i.val →
        exec .readContext s = .next ((s.taken st).accepting st 0x02 (s.contextBlock i))) ∧
      (47 < v.toNat → exec .readContext s = .next ((s.taken st).refusing st 0x02 0x05 []))) ∧
    (Executes s st 0x02 (1 :: bytes32 v) →
      (∀ i c, TheLive s v i c →
        exec .readContext s = .next ((s.taken st).accepting st 0x02 (s.contextBlock i))) ∧
      (∀ older i newer, NoneLive s v → s.endedList = older ++ i :: newer →
        (∃ c ∈ s.context i, c.lightpathId = v) → (∀ j ∈ newer, ∀ c ∈ s.context j, c.lightpathId ≠ v) →
        exec .readContext s = .next ((s.taken st).accepting st 0x02 (s.contextBlock i))) ∧
      (NoneLive s v → (∀ j ∈ s.endedList, ∀ c ∈ s.context j, c.lightpathId ≠ v) →
        exec .readContext s = .next ((s.taken st).accepting st 0x02 [0xFF])))) ∧
  (∀ (s : State) (i : CtxIx),
    (s.context i = none → s.contextBlock i = [indexByte i, 0]) ∧
    ∀ c, s.context i = some c → ∃ flags state sub roleByte : Byte, s.contextBlock i =
        [indexByte i, state, sub, roleByte, flags] ++
        bytes32 c.lightpathId ++ [indexByte c.owner, c.sides.ingressByte, c.sides.egressByte, indexByte c.point] ++
        nat16 c.run.first ++ [byte c.run.width, (c.hopIndex.map byte).getD 0xFF, (c.routeLength.map byte).getD 0xFF] ++
        int16 c.target ++ [byte c.window, (c.baseStep.map byte).getD 0xFF, (c.step.map byte).getD 0xFF, c.attenuation.code,
          match c.state with
          | .ramping _ n => byte n
          | _ => 0xFF] ++
        (c.charge.map nat32).getD [0xFF, 0xFF, 0xFF, 0xFF] ++
        ((c.lastMeasured.map fun m => int16 m.power ++ [(if m.floor then 1 else 0) + if m.saturated then 2 else 0]).getD
          [0xFF, 0xFF, 0xFF]) ++
        ((c.reference.map fun r => int16 r.power ++ [if r.floor then 1 else 0]).getD [0xFF, 0xFF, 0xFF]) ++
        (c.watchTimer.map nat32).getD [0xFF, 0xFF, 0xFF, 0xFF] ++
        ((c.ending.map fun e => [e.cause.code, e.origin.code] ++ bytes16 e.originNode ++ [(e.hop.map byte).getD 0xFF] ++
          (e.conflictSlot.map nat16).getD [0xFF, 0xFF] ++ [(e.timedOut.map TimedState.code).getD 0xFF]).getD
            (List.replicate 8 0xFF)) ++
        [byte c.journal.length] ++ c.journal.flatMap (fun r => [r.before.code, r.after.code]) ++ c.route.getD [] ∧
      (s.contextBlock i).length = 48 + 2 * c.journal.length + (c.route.getD []).length ∧
      state = (match c.state with
        | .probing => 1 | .reserved => 2 | .waitBudget => 3 | .ramping _ _ => 4
        | .passed => 5 | .inService => 6 | .retiring _ _ => 7 | .ended => 8) ∧
      sub = (match c.state with
        | .ramping .queued _ => 0x01 | .ramping .actuating _ => 0x02 | .ramping .settling _ => 0x03 | .ramping .backoff _ => 0x04
        | .retiring .gradual .queued => 0x11 | .retiring .gradual .actuating => 0x12 | .retiring .gradual .settling => 0x13
        | .retiring .hard .queued => 0x21 | .retiring .hard .actuating => 0x22 | .retiring .hard .settling => 0x23
        | _ => 0) ∧
      roleByte = (match c.sides with
        | .head _ _ => 1 | .transit _ _ => 2 | .tail _ _ => 3) ∧
      flags.getLsbD 0 = c.adopted ∧ flags.getLsbD 1 = c.rampOnClear.getD false ∧ flags.getLsbD 2 = c.abortPending.isSome ∧
      flags.getLsbD 3 = c.charge.isSome ∧ flags.getLsbD 4 = c.lastMeasured.isSome ∧ flags.getLsbD 5 = c.reference.isSome ∧
      ∀ k, 6 ≤ k → flags.getLsbD k = false) ∧
  (Atten.block.code = 0xFF ∧ ∀ n, (Atten.tenths n).code = byte n) ∧
  (∀ (a : Fin 16) (d e : Degree),
    (Sides.head a e).ingressByte = indexByte a ∧ (Sides.head a e).egressByte = indexByte e ∧
    (Sides.transit d e).ingressByte = indexByte d ∧ (Sides.transit d e).egressByte = indexByte e ∧
    (Sides.tail d a).ingressByte = indexByte d ∧ (Sides.tail d a).egressByte = indexByte a) ∧
  (∀ x ∈ [(TimedState.probing, (1 : Byte)), (.reserved, 2), (.waitBudget, 3), (.passed, 5)], x.1.code = x.2) ∧
  ∀ x ∈ [(Cause.nodeClosed, (0x01 : Byte)), (.duplicateId, 0x02), (.noContext, 0x03), (.routeInvalid, 0x04), (.slotBusy, 0x05),
      (.refused, 0x10), (.abortedRemote, 0x11), (.abortedLocal, 0x12), (.timeout, 0x13), (.guardFault, 0x14), (.reachShort, 0x15),
      (.overReach, 0x16), (.actuatorReject, 0x17), (.actuatorTimeout, 0x18), (.monitorTimeout, 0x19), (.completed, 0x1A),
      (.darkUnconfirmed, 0x1B)], x.1.code = x.2

/-- READ MAP answers with the run-length entries of the range, of which at most 64 are carried, and changes nothing (R17): the entries spell
the slots of the range in order, none is empty, and neighbours differ. An entry is three bytes: the state code above the nine bits of the
count, and the context index (R180). A map or a range that does not exist is refused (R173). -/
def Obligations.ReadMapReturnsRunLengths : Prop :=
  (∀ (n : Nat) (i : CtxIx), n ≤ 384 →
    mapEntryBytes (.free, n) = [byte (n / 256), byte n, 0xFF] ∧
    mapEntryBytes (.held i, n) = [byte (64 + n / 256), byte n, indexByte i] ∧
    mapEntryBytes (.lit i, n) = [byte (128 + n / 256), byte n, indexByte i] ∧
    mapEntryBytes (.barred, n) = [byte (192 + n / 256), byte n, 0xFF]) ∧
  (∀ (s : State) (st : Station) (m : Byte) (first count : Word16), Executes s st 0x04 (m :: bytes16 first ++ bytes16 count) →
    15 < m.toNat ∨ 383 < first.toNat ∨ count = 0 ∨ 384 < first.toNat + count.toNat →
    exec .readMap s = .next ((s.taken st).refusing st 0x04 0x05 [])) ∧
  ∀ (s : State) (st : Station) (m : MapIx) (first count : Nat), first ≤ 383 → 1 ≤ count → first + count ≤ 384 →
    Executes s st 0x04 (indexByte m :: nat16 first ++ nat16 count) →
    ∃ es : List (Slot × Nat),
      es.flatMap (fun e => List.replicate e.2 e.1) = (List.range' first count).map (s.slotAt m) ∧
      (∀ e ∈ es, 1 ≤ e.2) ∧ (es.map Prod.fst).IsChain (· ≠ ·) ∧
      exec .readMap s = .next ((s.taken st).accepting st 0x04
        ([byte (min 64 es.length), if 64 < es.length then 1 else 0] ++ (es.take 64).flatMap mapEntryBytes))

/-- READ POINT answers with the point's items as they stand and changes nothing (R77, R180). READ LINK answers with the link's items, and
its clear option sets the five counts to 0 and the overrun flag clear after the reply has been formed, and nothing else (R134, R180). A
point above 15 and a degree above 7 are refused (R161, R173); that a clear option above 1 is too is the model's reading (log entry 16). -/
def Obligations.ReadPointAndReadLinkReport : Prop :=
  (∀ (s : State) (st : Station) (n : Byte), Executes s st 0x05 [n] → 15 < n.toNat →
    exec .readPoint s = .next ((s.taken st).refusing st 0x05 0x05 [])) ∧
  (∀ (s : State) (st : Station) (n o : Byte), Executes s st 0x06 [n, o] → 7 < n.toNat ∨ 1 < o.toNat →
    exec .readLink s = .next ((s.taken st).refusing st 0x06 0x05 [])) ∧
  (∀ (s : State) (st : Station) (p : PointIx), Executes s st 0x05 [indexByte p] →
    exec .readPoint s = .next ((s.taken st).accepting st 0x05
      (int16 (s.point p).limit ++ nat32 (forward (s.point p).limit) ++ nat32 (s.point p).load ++
        int16 (s.point p).density ++ [byte (s.point p).guardTol, byte (s.point p).line.length] ++
        (s.point p).line.map indexByte ++ [byte (s.point p).queue.length] ++ (s.point p).queue.map indexByte ++
        (match (s.point p).holder with
          | none => ([0xFF, 0, 0, 0] : List Byte)
          | some i => [indexByte i, (s.contextBlock i).getD 2 0,
              if (s.outstanding[p]).isSome then 1 else 0, byte (s.point p).settle]) ++
        (match (s.point p).service with
          | .none => ([0, 0xFF, 0xFF, 0xFF] : List Byte)
          | .pending r => 1 :: nat16 r.first ++ [byte r.width]
          | .active r => 2 :: nat16 r.first ++ [byte r.width]) ++
        [match (s.point p).lastService with
          | none => (0xFF : Byte)
          | some .ok => 0
          | some .reject => 1
          | some .timeout => 2] ++
        (match (s.point p).lastSequence with
          | none => ([0xFF, 0xFF] : List Byte)
          | some q => [0, q])))) ∧
  (∀ (s : State) (st : Station) (d : Degree) (clearOption : Byte), Executes s st 0x06 [indexByte d, clearOption] →
    clearOption = 0 ∨ clearOption = 1 →
    exec .readLink s = .next ((if clearOption = 1 then (s.taken st).modLink d fun l =>
        { l with overrun := false, rxErrors := 0, overruns := 0, malformed := 0, stray := 0, txDrops := 0 }
      else s.taken st).accepting st 0x06
        ([match (s.link d).state with
            | .disabled => (0 : Byte)
            | .down => 1
            | .up => 2
            | .draining => 3,
            if (s.link d).carrier then 1 else 0, byte (s.link d).rx.length,
            byte (s.link d).tx.length, if (s.link d).overrun then 1 else 0] ++
          nat16 (s.link d).rxErrors ++ nat16 (s.link d).overruns ++ nat16 (s.link d).malformed ++
          nat16 (s.link d).stray ++ nat16 (s.link d).txDrops)))

/-- NEXT CHANGED takes the lowest index out of the issuing station's changed set and answers with the record at it, or with NONE where the
set is empty (R174). SET ATTENTION MASK writes the issuing station's mask, and refuses one that sets a bit above 3; CLEAR STATION empties
the issuing station's holder and changed set and posts its own reply (R157, R177, R180). None touches anything else. -/
def Obligations.StationCommandsActOnTheStation : Prop :=
  (∀ (s : State) (st : Station), Executes s st 0x03 [] →
    (∀ i : CtxIx, (s.changed[st])[i] = true → (∀ j : CtxIx, j < i → (s.changed[st])[j] = false) →
      exec .nextChanged s = .next ({ s.taken st with
        changed := put s.changed st (put s.changed[st] i false) }.accepting st 0x03 (s.contextBlock i))) ∧
    ((∀ i : CtxIx, (s.changed[st])[i] = false) →
      exec .nextChanged s = .next ((s.taken st).accepting st 0x03 [0xFF]))) ∧
  ((∀ (s : State) (st : Station) (m : Byte), Executes s st 0x07 [m] →
    exec .setAttentionMask s = .next (if m.toNat < 16 then
      { s.taken st with masks := put s.masks st (m.setWidth 4) }.accepting st 0x07 []
      else (s.taken st).refusing st 0x07 0x05 [])) ∧
  (∀ (s : State) (st : Station), Executes s st 0x08 [] → ∃ t, exec .clearStation s = .next t ∧
    t.holders = put s.holders st (some [0x00, 0x08]) ∧
    (∀ (x : Station) (i : CtxIx), (t.changed[x])[i] = if x = st then false else (s.changed[x])[i]) ∧
    { t with holders := s.holders, changed := s.changed } = s.taken st))

/-! ## Configuring commands -/

/-- CONFIGURE NODE, which is refused while a record is live (R163), OPEN NODE and CLOSE NODE (R164) and SET LOCKOUT (R167), from station 0,
in every case of their checks. -/
def Obligations.NodeCommandsConfigureTheNode : Prop :=
  ∀ s : State,
    (∀ v : Word16, Executes s 0 0x10 (bytes16 v) →
      (v = 0 → exec .configureNode s = .next ((s.taken 0).refusing 0 0x10 0x05 [])) ∧
      (v ≠ 0 → (∃ i, ∃ c ∈ s.context i, c.state ≠ .ended) →
        exec .configureNode s = .next ((s.taken 0).refusing 0 0x10 0x0A [])) ∧
      (v ≠ 0 → (∀ i, ∀ c ∈ s.context i, c.state = .ended) →
        exec .configureNode s = .next ({ s.taken 0 with nodeId := v }.accepting 0 0x10 []))) ∧
    (Executes s 0 0x11 [] → exec .openNode s = .next (if s.nodeId = 0 then (s.taken 0).refusing 0 0x11 0x0A []
        else { s.taken 0 with nodeOpen := true }.accepting 0 0x11 [])) ∧
    (Executes s 0 0x12 [] → exec .closeNode s = .next ({ s.taken 0 with nodeOpen := false }.accepting 0 0x12 [])) ∧
    (∀ v : Word16, Executes s 0 0x15 (bytes16 v) →
      ((v.getLsbD 0 = true ∨ 512 ≤ v.toNat) → exec .setLockout s = .next ((s.taken 0).refusing 0 0x15 0x05 [])) ∧
      (v.getLsbD 0 = false → v.toNat < 512 → ∃ t, exec .setLockout s = .next t ∧
        (∀ st : Station, t.lockout[st] = v.getLsbD st.val) ∧
        { t with lockout := s.lockout } = (s.taken 0).accepting 0 0x15 []))

/-- SET TIMING writes each given value, clamped to its range, keeps every value not given, refuses none, and answers with the whole table
after the write (R35, R165). -/
def Obligations.SetTimingClampsAndWrites : Prop :=
  ∀ (s : State) (presence : Byte) (a b c d e f g : Word32),
    Executes s 0 0x13 (presence :: (bytes32 a ++ bytes32 b ++ bytes32 c ++ bytes32 d ++ bytes32 e ++ bytes32 f ++ bytes32 g)) →
    ∃ t : Timing, exec .setTiming s = .next ({ s.taken 0 with timing := t }.accepting 0 0x13
        (nat32 t.probeHop ++ nat32 t.reserveHold ++ nat32 t.lightHop ++ nat32 t.litHop ++ nat32 t.budgetWait ++
          nat32 t.actuatorWait ++ nat32 t.sweepWait)) ∧
      t.probeHop = (if presence.getLsbD 0 then max 1 (min 10000 a.toNat) else s.timing.probeHop) ∧
      t.reserveHold = (if presence.getLsbD 1 then max 1 (min 600000 b.toNat) else s.timing.reserveHold) ∧
      t.lightHop = (if presence.getLsbD 2 then max 1 (min 600000 c.toNat) else s.timing.lightHop) ∧
      t.litHop = (if presence.getLsbD 3 then max 1 (min 600000 d.toNat) else s.timing.litHop) ∧
      t.budgetWait = (if presence.getLsbD 4 then max 1000 (min 3600000 e.toNat) else s.timing.budgetWait) ∧
      t.actuatorWait = (if presence.getLsbD 5 then max 10 (min 5000 f.toNat) else s.timing.actuatorWait) ∧
      t.sweepWait = (if presence.getLsbD 6 then max 100 (min 10000 g.toNat) else s.timing.sweepWait)

/-- SET POINT refuses a point above 15 and a limit out of range with BAD_ARGUMENT and a limit below the load with LIMIT_BELOW_LOAD;
otherwise it writes the given items, density and guard clamped, makes an admission attempt where the limit's linear value rises, and answers
with the three items (R54, R166). -/
def Obligations.SetPointChecksAndWrites : Prop :=
  ∀ (s : State) (n presence guardByte : Byte) (limit density : Word16),
    Executes s 0 0x14 (n :: presence :: (bytes16 limit ++ bytes16 density ++ [guardByte])) →
    (15 < n.toNat → exec .setPoint s = .next ((s.taken 0).refusing 0 0x14 0x05 [])) ∧
    ∀ p : PointIx, n.toNat = p.val →
      (presence.getLsbD 0 = true → limit.toInt < -400 ∨ 250 < limit.toInt →
        exec .setPoint s = .next ((s.taken 0).refusing 0 0x14 0x05 [])) ∧
      (presence.getLsbD 0 = true → -400 ≤ limit.toInt → limit.toInt ≤ 250 →
        forward limit.toInt < (s.point p).load →
        exec .setPoint s = .next ((s.taken 0).refusing 0 0x14 0x0C [])) ∧
      ((presence.getLsbD 0 = true → -400 ≤ limit.toInt ∧ limit.toInt ≤ 250 ∧ (s.point p).load ≤ forward limit.toInt) →
        ∃ q : Point,
          q = { s.point p with
            limit := if presence.getLsbD 0 then limit.toInt else (s.point p).limit
            density := if presence.getLsbD 1 then max (-300) (min 100 density.toInt) else (s.point p).density
            guardTol := if presence.getLsbD 2 then max 1 (min 30 guardByte.toNat) else (s.point p).guardTol } ∧
          exec .setPoint s = .next ((if presence.getLsbD 0 = true ∧ forward (s.point p).limit < forward limit.toInt
            then ((s.taken 0).modPoint p fun _ => q).attempt p else (s.taken 0).modPoint p fun _ => q).accepting
              0 0x14 (int16 q.limit ++ int16 q.density ++ [byte q.guardTol])))

/-- LINK CONTROL in every link state (R125, R127, R128): an enable moves a DISABLED link to UP or DOWN by its carrier, is refused in
DRAINING and changes nothing else; a disable empties the receive queue of a DOWN or UP link uncounted, and takes the link to DISABLED, or to
DRAINING where frames are left to send. A degree above 7 and an order of neither kind are refused (R168). -/
def Obligations.LinkControlMovesTheLink : Prop :=
  (∀ (s : State) (n order : Byte), Executes s 0 0x16 [n, order] → 7 < n.toNat ∨ (order ≠ 1 ∧ order ≠ 2) →
    (order ≠ 2 → exec .linkControlEnable s = .next ((s.taken 0).refusing 0 0x16 0x05 [])) ∧
    (order ≠ 1 → exec .linkControlDisable s = .next ((s.taken 0).refusing 0 0x16 0x05 []))) ∧
  ∀ (s : State) (d : Degree),
    (Executes s 0 0x16 [indexByte d, 1] →
      ((s.link d).state = .disabled → exec .linkControlEnable s = .next (((s.taken 0).modLink d fun l =>
        { l with state := if l.carrier then .up else .down }).accepting 0 0x16 [])) ∧
      ((s.link d).state = .down ∨ (s.link d).state = .up →
        exec .linkControlEnable s = .next ((s.taken 0).accepting 0 0x16 [])) ∧
      ((s.link d).state = .draining →
        exec .linkControlEnable s = .next ((s.taken 0).refusing 0 0x16 0x0A []))) ∧
    (Executes s 0 0x16 [indexByte d, 2] →
      ((s.link d).state = .down → exec .linkControlDisable s = .next (((s.taken 0).modLink d fun l =>
        { l with state := .disabled, rx := [] }).accepting 0 0x16 [])) ∧
      ((s.link d).state = .up → exec .linkControlDisable s = .next (((s.taken 0).modLink d fun l =>
        { l with state := if l.tx = [] then .disabled else .draining, rx := [] }).accepting 0 0x16 [])) ∧
      ((s.link d).state = .disabled ∨ (s.link d).state = .draining →
        exec .linkControlDisable s = .next ((s.taken 0).accepting 0 0x16 [])))

/-- BAR SLOTS and UNBAR SLOTS over a range without a HELD or LIT slot (R15, R16): every FREE entry of the range becomes BARRED, or every
BARRED entry FREE; no other entry of any map and nothing else changes. With one, SLOT_BUSY names the lowest and nothing changes. A map or a
range that does not exist is refused (R168). -/
def Obligations.BarAndUnbarChangeTheRange : Prop :=
  (∀ (s : State) (m : Byte) (first count : Word16) (bar : Bool),
    Executes s 0 (if bar then 0x18 else 0x19) (m :: bytes16 first ++ bytes16 count) →
    15 < m.toNat ∨ 383 < first.toNat ∨ count = 0 ∨ 384 < first.toNat + count.toNat →
    exec (if bar then .barSlots else .unbarSlots) s =
      .next ((s.taken 0).refusing 0 (if bar then 0x18 else 0x19) 0x05 [])) ∧
  ∀ (s : State) (m : MapIx) (first count : Nat) (bar : Bool), first ≤ 383 → 1 ≤ count → first + count ≤ 384 →
    Executes s 0 (if bar then 0x18 else 0x19) (indexByte m :: nat16 first ++ nat16 count) →
    ((∀ k, first ≤ k → k < first + count → s.slotAt m k = .free ∨ s.slotAt m k = .barred) →
      ∃ t, exec (if bar then .barSlots else .unbarSlots) s = .next t ∧
        (∀ (n : MapIx) (k : Nat), k < 384 → t.slotAt n k =
          if n = m ∧ first ≤ k ∧ k < first + count then (if bar then .barred else .free) else s.slotAt n k) ∧
        { t with maps := s.maps } = (s.taken 0).accepting 0 (if bar then 0x18 else 0x19) []) ∧
    (∀ k, first ≤ k → k < first + count → (∃ i, s.slotAt m k = .held i ∨ s.slotAt m k = .lit i) →
      (∀ j, first ≤ j → j < k → s.slotAt m j = .free ∨ s.slotAt m j = .barred) →
      exec (if bar then .barSlots else .unbarSlots) s = .next ((s.taken 0).refusing 0
        (if bar then 0x18 else 0x19) 0x08 (nat16 k ++ [indexByte m])))

/-- FORCE DARK over a run without a HELD or LIT slot on the map its point names (R91): refused with BUSY while a request is PENDING or
ACTIVE; otherwise the last service result becomes absent and the request PENDING, or, at a free lock, ACTIVE with its BLOCK offered in the
same event (R60, R92). E(d), point d, names map O(d), which is map d + 8, and D(d), point d + 8, names I(d), map d (R2, R91, R136). A slot
run has width 2 to 16, first slot 0 to 383, and ends at slot 383 at most. Before that, a point or run outside the conventions is refused
with BAD_ARGUMENT, and a HELD or LIT slot with SLOT_BUSY, which names the lowest. -/
def Obligations.ForceDarkPlacesAServiceRequest : Prop :=
  (∀ p : PointIx, (p.val < 8 → (mapOfPoint p).val = p.val + 8) ∧ (8 ≤ p.val → (mapOfPoint p).val = p.val - 8)) ∧
  (∀ r : Run, (r.isSlotRun = true ↔ 2 ≤ r.width ∧ r.width ≤ 16 ∧ r.first ≤ 383 ∧ r.first + r.width ≤ 384) ∧
    ∀ k, r.covers k = true ↔ r.first ≤ k ∧ k < r.first + r.width) ∧
  (∀ (s : State) (n width : Byte) (first : Word16), Executes s 0 0x1A (n :: bytes16 first ++ [width]) →
    15 < n.toNat ∨ (⟨first.toNat, width.toNat⟩ : Run).isSlotRun = false →
    exec .forceDark s = .next ((s.taken 0).refusing 0 0x1A 0x05 [])) ∧
  (∀ (s : State) (p : PointIx) (r : Run) (k : Nat), r.isSlotRun = true →
    Executes s 0 0x1A (indexByte p :: nat16 r.first ++ [byte r.width]) → r.covers k = true →
    (∃ i, s.slotAt (mapOfPoint p) k = .held i ∨ s.slotAt (mapOfPoint p) k = .lit i) →
    (∀ j, r.covers j = true → j < k → s.slotAt (mapOfPoint p) j = .free ∨ s.slotAt (mapOfPoint p) j = .barred) →
    exec .forceDark s = .next ((s.taken 0).refusing 0 0x1A 0x08 (nat16 k ++ [indexByte (mapOfPoint p)]))) ∧
  ∀ (s : State) (p : PointIx) (r : Run), r.isSlotRun = true →
    Executes s 0 0x1A (indexByte p :: nat16 r.first ++ [byte r.width]) →
    (∀ k, r.covers k = true → s.slotAt (mapOfPoint p) k = .free ∨ s.slotAt (mapOfPoint p) k = .barred) →
    ((s.point p).service ≠ .none → exec .forceDark s = .next ((s.taken 0).refusing 0 0x1A 0x0E [])) ∧
    ((s.point p).service = .none → (s.point p).holder ≠ none →
      exec .forceDark s = .next (((s.taken 0).modPoint p fun q =>
        { q with service := .pending r, lastService := none }).accepting 0 0x1A [])) ∧
    ((s.point p).service = .none → (s.point p).holder = none →
      exec .forceDark s = .next ((((s.taken 0).modPoint p fun q =>
        { q with service := .active r, lastService := none }).offerSetting p r .block).accepting 0 0x1A []))

/-- REREFERENCE POINT gives every charged PASSED or IN_SERVICE context at the point that has a last measured value that value, with its
floor mark, as its reference, writes nothing else, and answers with how many it wrote (R74, R169); a point above 15 is refused. -/
def Obligations.RereferenceTakesTheLastMeasured : Prop :=
  (∀ (s : State) (n : Byte), Executes s 0 0x1B [n] → 15 < n.toNat →
    exec .rereferencePoint s = .next ((s.taken 0).refusing 0 0x1B 0x05 [])) ∧
  ∀ (s : State) (p : PointIx), Executes s 0 0x1B [indexByte p] → ∃ t n, exec .rereferencePoint s = .next t ∧
    (∀ i, ∀ c, s.context i = some c → t.context i = some
      (if c.point = p ∧ (c.state = .passed ∨ c.state = .inService) ∧ c.charge ≠ none ∧ c.lastMeasured ≠ none then
        { c with reference := c.lastMeasured.map fun m => ⟨m.power, m.floor⟩ } else c)) ∧
    (∀ i, s.context i = none → t.context i = none) ∧
    n = (List.finRange 48).countP (fun i => (s.context i).any fun c =>
      c.point == p && (c.state == .passed || c.state == .inService) && c.charge.isSome && c.lastMeasured.isSome) ∧
    { t with contexts := s.contexts } = (s.taken 0).accepting 0 0x1B [byte n]

/-! ## Lightpath commands -/

/-- An ADOPT LIGHTPATH that passes its checks (R171) writes the chosen record as an adopted IN_SERVICE context of station 0 with a journal
of one record, writes its run LIT on its maps, adds its charge to the load and answers with the index and the charge (R172). The target of a
run is its point's density plus the offset of its width, clamped to −300 to +200 (R45). The maps and the point of a context follow from its
sides: I(d) is map d, O(d) map d + 8, E(d) point d and D(d) point d + 8 (R2, R19, R136, R179). So do its links: upstream the ingress degree
of a transit or a tail, and none at a head; downstream the egress degree of a head or a transit, and none at a tail (R22). -/
def Obligations.AdoptRegistersALitChannel : Prop :=
  (∀ (density : Int) (width : Nat) (offset : Int),
    (width, offset) ∈ ([(2, 30), (3, 48), (4, 60), (5, 70), (6, 78), (7, 85), (8, 90), (9, 95), (10, 100), (11, 104), (12, 108),
      (13, 111), (14, 115), (15, 118), (16, 120)] : List (Nat × Int)) →
    targetOf density width = max (-300) (min 200 (density + offset))) ∧
  (∀ (a : Fin 16) (d e : Degree),
    (Sides.head a e).mapsUsed.map Fin.val = [e.val + 8] ∧ (Sides.head a e).point.val = e.val ∧
    (Sides.transit d e).mapsUsed.map Fin.val = [d.val, e.val + 8] ∧ (Sides.transit d e).point.val = e.val ∧
    (Sides.tail d a).mapsUsed.map Fin.val = [d.val] ∧ (Sides.tail d a).point.val = d.val + 8 ∧
    (Sides.head a e).upstream = none ∧ (Sides.head a e).downstream = some e ∧ (Sides.head a e).role = .head ∧
    (Sides.transit d e).upstream = some d ∧ (Sides.transit d e).downstream = some e ∧ (Sides.transit d e).role = .transit ∧
    (Sides.tail d a).upstream = some d ∧ (Sides.tail d a).downstream = none ∧ (Sides.tail d a).role = .tail ∧
    (ingressMap d).val = d.val ∧ (egressMap d).val = d.val + 8 ∧ (egressPoint d).val = d.val ∧ (dropPoint d).val = d.val + 8) ∧
  (Role.head.code = 1 ∧ Role.transit.code = 2 ∧ Role.tail.code = 3 ∧ ∀ c : Context, c.point = c.sides.point) ∧
  ∀ (s : State) (sides : Sides) (id : Word32) (run : Run) (attenuation : Nat) (windowByte : Byte) (i : CtxIx),
    Executes s 0 0x1C ([sides.role.code] ++ bytes32 id ++ [sides.ingressByte, sides.egressByte] ++ nat16 run.first ++
      [byte run.width, byte attenuation, windowByte]) →
    run.isSlotRun = true → attenuation ≤ 250 → s.nodeId ≠ 0 → NoneLive s id → Chooses s i →
    FreeOn s sides.mapsUsed run →
    (∀ r, (s.point sides.point).service = .pending r ∨ (s.point sides.point).service = .active r →
      ∀ k, ¬(r.covers k = true ∧ run.covers k = true)) →
    ∀ target window charge, target = targetOf (s.point sides.point).density run.width →
      window = max 1 (min 20 windowByte.toNat) → charge = forward (min 250 (target + window)) →
      ((s.point sides.point).load + charge ≤ forward (s.point sides.point).limit →
        exec .adoptLightpath s = .next (((((s.taken 0).writeRun sides.mapsUsed run (.lit i)).modPoint sides.point fun p =>
          { p with load := p.load + charge }).create i
          { state := .inService, sides := sides, adopted := true, rampOnClear := none, lightpathId := id, owner := 0,
            run := run, hopIndex := none, routeLength := none, route := none, target := target, window := window,
            baseStep := none, step := none, attenuation := .tenths attenuation,
            journal := [⟨.block, .tenths attenuation⟩], charge := some charge, lastMeasured := none, reference := none,
            abortPending := none, ending := none, watchTimer := none } .inService).accepting
          0 0x1C ([indexByte i] ++ nat32 charge))) ∧
      (forward (s.point sides.point).limit < (s.point sides.point).load + charge →
        exec .adoptLightpath s = .next ((s.taken 0).refusing 0 0x1C 0x0B []))

/-- A BEGIN LIGHTPATH that passes its checks (R99), with a fixed first slot or with the lowest or highest run that is FREE (R10), claims its
run HELD, writes the chosen record as a HEAD context in PROBING, offers the PROBE to the link of route[0] and answers with the index and the
first slot (R100). A creation, whatever its command or frame, writes every slot of its run on its maps and the record with its watch timer,
withdraws the old record of that index from the ended list and from every changed set (R28), and then joins the index afresh to the owner's
changed set and to station 0's (R32); it changes nothing else. -/
def Obligations.BeginCreatesAHeadAndSendsAProbe : Prop :=
  (∀ (s t : State) (maps : List MapIx) (run : Run) (slot : Slot) (i : CtxIx) (c : Context) (st : CtxState),
    t = (s.writeRun maps run slot).create i c st →
    t.context i = (s.enter i c st).context i ∧
    (∀ j, j ≠ i → t.context j = s.context j) ∧ t.endedList = s.endedList.erase i ∧
    (∀ (x : Station) (j : CtxIx), (t.changed[x])[j] = if j = i then decide (x = 0 ∨ x = c.owner) else (s.changed[x])[j]) ∧
    (∀ (m : MapIx) (k : Nat), k < 384 → t.slotAt m k =
      if m ∈ maps ∧ run.first ≤ k ∧ k < run.first + run.width then slot else s.slotAt m k) ∧
    { t with contexts := s.contexts, endedList := s.endedList, changed := s.changed, maps := s.maps } = s) ∧
  ∀ (s : State) (st : Station) (id : Word32) (addPort : Fin 16) (first : Word16) (width window step flags : Byte)
    (e : Degree) (middle : List Byte) (drop : Byte) (i : CtxIx) (f : Nat) (route : List Byte),
    route = indexByte e :: middle ++ [drop] → route.length ≤ 32 → (∀ x ∈ middle, x.toNat ≤ 7) → drop.toNat ≤ 15 →
    Executes s st 0x20 (bytes32 id ++ [indexByte addPort, byte route.length] ++ bytes16 first ++
      [width, window, step, flags] ++ route) →
    (st = 0 ∨ st.val = e.val + 1) → s.nodeOpen = true → 2 ≤ width.toNat → width.toNat ≤ 16 →
    (flags.toNat ≤ 1 ∨ Config.beginReservedFlagsRefused flags = false) →
    NoneLive s id → Chooses s i → (s.link e).state = .up →
    FreeOn s [egressMap e] ⟨f, width.toNat⟩ → f + width.toNat ≤ 384 →
    ((first.toNat = f) ∨
      (first = 0xFFFE#16 ∧ ∀ g < f, ¬FreeOn s [egressMap e] ⟨g, width.toNat⟩) ∨
      (first = 0xFFFF#16 ∧ ∀ g, f < g → g + width.toNat ≤ 384 → ¬FreeOn s [egressMap e] ⟨g, width.toNat⟩)) →
    ∀ w b, w = max 1 (min 20 window.toNat) → b = max 1 (min 30 step.toNat) →
      exec .beginLightpath s = .next (((((s.taken st).writeRun [egressMap e] ⟨f, width.toNat⟩ (.held i)).create i
        { state := .probing, sides := .head addPort e, adopted := false, rampOnClear := some (flags.getLsbD 0),
          lightpathId := id, owner := st, run := ⟨f, width.toNat⟩, hopIndex := some 0, routeLength := some route.length,
          route := some route, target := targetOf (s.point (egressPoint e)).density width.toNat, window := w,
          baseStep := some b, step := some b, attenuation := .block, journal := [], charge := none, lastMeasured := none,
          reference := none, abortPending := none, ending := none, watchTimer := none } .probing).offer e id
            (.probe 1 f width.toNat w b route.length route)).accepting st 0x20 ([indexByte i] ++ nat16 f))

/-- The checks of ADOPT LIGHTPATH (R171, R9) and of BEGIN LIGHTPATH (R99) in their order, up to the claim, with the record that R26 chooses:
the first that fails refuses the command, a SLOT_BUSY with the lowest conflicting slot and the first map, ingress before egress, on which it
is not FREE (R6). That an empty route gives a degree's station NOT_PERMITTED is the model's reading (log entry 16); whether the reserved
bits of the flags byte refuse the command is a free value, and both its values are stated (log entry 4). -/
def Obligations.AdoptAndBeginRefuseInOrder : Prop :=
  (∀ (s : State) (role ingress egress width attenuation window : Byte) (id : Word32) (first : Word16) (sidesFit runFits : Prop),
    Executes s 0 0x1C ([role] ++ bytes32 id ++ [ingress, egress] ++ bytes16 first ++ [width, attenuation, window]) →
    (sidesFit ↔ ∃ x : Sides, role = x.role.code ∧ ingress = x.ingressByte ∧ egress = x.egressByte) →
    (runFits ↔ (⟨first.toNat, width.toNat⟩ : Run).isSlotRun = true) →
    (s.nodeId = 0 → exec .adoptLightpath s = .next ((s.taken 0).refusing 0 0x1C 0x0A [])) ∧
    (s.nodeId ≠ 0 → ¬sidesFit ∨ ¬runFits ∨ 250 < attenuation.toNat →
      exec .adoptLightpath s = .next ((s.taken 0).refusing 0 0x1C 0x05 [])) ∧
    (s.nodeId ≠ 0 → runFits → attenuation.toNat ≤ 250 → ∀ x : Sides, role = x.role.code → ingress = x.ingressByte →
      egress = x.egressByte →
      (¬NoneLive s id → exec .adoptLightpath s = .next ((s.taken 0).refusing 0 0x1C 0x07 [])) ∧
      (NoneLive s id → (∀ i, s.context i ≠ none) → s.endedList = [] →
        exec .adoptLightpath s = .next ((s.taken 0).refusing 0 0x1C 0x06 [])) ∧
      ∀ i k, NoneLive s id → Chooses s i → (⟨first.toNat, width.toNat⟩ : Run).covers k = true →
        (∀ r, (s.point x.point).service = .pending r ∨ (s.point x.point).service = .active r → r.covers k = true →
          exec .adoptLightpath s = .next ((s.taken 0).refusing 0 0x1C 0x0E [])) ∧
        ∀ a m b, (∀ r, (s.point x.point).service = .pending r ∨ (s.point x.point).service = .active r →
            ∀ q, ¬(r.covers q = true ∧ (⟨first.toNat, width.toNat⟩ : Run).covers q = true)) →
          x.mapsUsed = a ++ m :: b → s.slotAt m k ≠ .free → (∀ n ∈ a, s.slotAt n k = .free) →
          (∀ j, first.toNat ≤ j → j < k → ∀ n ∈ x.mapsUsed, s.slotAt n j = .free) →
          exec .adoptLightpath s = .next ((s.taken 0).refusing 0 0x1C 0x08 (nat16 k ++ [indexByte m])))) ∧
  (∀ (s : State) (st : Station) (id : Word32) (port len width window step flags : Byte) (first : Word16) (route : List Byte)
    (permitted valid : Prop), route.length = len.toNat →
    Executes s st 0x20 (bytes32 id ++ [port, len] ++ bytes16 first ++ [width, window, step, flags] ++ route) →
    (permitted ↔ st = 0 ∨ ∃ e ∈ route.head?, e.toNat + 1 = st.val) →
    (valid ↔ port.toNat ≤ 15 ∧ 2 ≤ len.toNat ∧ len.toNat ≤ 32 ∧ (∀ x ∈ route.dropLast, x.toNat ≤ 7) ∧
      (route.getLastD 0).toNat ≤ 15 ∧ 2 ≤ width.toNat ∧ width.toNat ≤ 16 ∧
      (first = 0xFFFE#16 ∨ first = 0xFFFF#16 ∨ (first.toNat ≤ 383 ∧ first.toNat + width.toNat ≤ 384))) →
    (¬permitted → exec .beginLightpath s = .next ((s.taken st).refusing st 0x20 0x01 [])) ∧
    (permitted → s.nodeOpen = false → exec .beginLightpath s = .next ((s.taken st).refusing st 0x20 0x03 [])) ∧
    (permitted → s.nodeOpen = true → ¬valid → exec .beginLightpath s = .next ((s.taken st).refusing st 0x20 0x05 [])) ∧
    (permitted → s.nodeOpen = true → valid → 1 < flags.toNat → Config.beginReservedFlagsRefused flags = true →
      exec .beginLightpath s = .next ((s.taken st).refusing st 0x20 0x05 [])) ∧
    (permitted → s.nodeOpen = true → valid → (flags.toNat ≤ 1 ∨ Config.beginReservedFlagsRefused flags = false) →
      (¬NoneLive s id → exec .beginLightpath s = .next ((s.taken st).refusing st 0x20 0x07 [])) ∧
      (NoneLive s id → (∀ i, s.context i ≠ none) → s.endedList = [] →
        exec .beginLightpath s = .next ((s.taken st).refusing st 0x20 0x06 [])) ∧
      ∀ i (e : Degree), NoneLive s id → Chooses s i → route.head? = some (indexByte e) →
        ((s.link e).state ≠ .up → exec .beginLightpath s = .next ((s.taken st).refusing st 0x20 0x0D [])) ∧
        ((s.link e).state = .up → ∀ k, first.toNat ≤ 383 → (⟨first.toNat, width.toNat⟩ : Run).covers k = true →
          s.slotAt (egressMap e) k ≠ .free → (∀ j, first.toNat ≤ j → j < k → s.slotAt (egressMap e) j = .free) →
          exec .beginLightpath s = .next ((s.taken st).refusing st 0x20 0x08 (nat16 k ++ [indexByte (egressMap e)]))) ∧
        ((s.link e).state = .up → first = 0xFFFE#16 ∨ first = 0xFFFF#16 →
          (∀ f, f + width.toNat ≤ 384 → ¬FreeOn s [egressMap e] ⟨f, width.toNat⟩) →
          exec .beginLightpath s = .next ((s.taken st).refusing st 0x20 0x09 []))))

/-- START RAMP (R101): the RESERVED head without ramp on clear joins its budget line (R55) for its owner or station 0; any other issuer is
refused with NOT_PERMITTED, any other live context, or none, with WRONG_STATE. TEARDOWN LIGHTPATH (R113): an IN_SERVICE head enters RETIRING
GRADUAL with cause COMPLETED at the tail of its step queue, and a lock grant follows (R79); a context that is no such head is refused with
WRONG_STATE before the issuer is tested. -/
def Obligations.HeadCommandsRampAndTearDown : Prop :=
  (∀ (s : State) (st : Station) (id : Word32), Executes s st 0x21 (bytes32 id) →
    (NoneLive s id → exec .startRamp s = .next ((s.taken st).refusing st 0x21 0x0A [])) ∧
    ∀ i c, TheLive s id i c →
      (st ≠ c.owner → st ≠ 0 → exec .startRamp s = .next ((s.taken st).refusing st 0x21 0x01 [])) ∧
      (st = c.owner ∨ st = 0 →
        (c.sides.role = .head → c.state = .reserved → c.rampOnClear = some false →
          exec .startRamp s = .next ((((((s.taken st).enter i c .waitBudget).modPoint c.point fun q =>
            { q with line := q.line ++ [i] }).attempt c.point)).accepting st 0x21 [indexByte i])) ∧
        (¬(c.sides.role = .head ∧ c.state = .reserved ∧ c.rampOnClear = some false) →
          exec .startRamp s = .next ((s.taken st).refusing st 0x21 0x0A [])))) ∧
  (∀ (s : State) (st : Station) (id : Word32), Executes s st 0x22 (bytes32 id) →
    (NoneLive s id → exec .teardownLightpath s = .next ((s.taken st).refusing st 0x22 0x0A [])) ∧
    ∀ i c, TheLive s id i c →
      (c.sides.role ≠ .head ∨ c.state ≠ .inService →
        exec .teardownLightpath s = .next ((s.taken st).refusing st 0x22 0x0A [])) ∧
      (c.sides.role = .head → c.state = .inService →
        (st ≠ c.owner → st ≠ 0 → exec .teardownLightpath s = .next ((s.taken st).refusing st 0x22 0x01 [])) ∧
        (st = c.owner ∨ st = 0 → exec .teardownLightpath s = .next (((((s.taken st).enter i
          { c with ending := some ⟨.completed, .completed, s.nodeId, c.hopIndex, none, none⟩ }
          (.retiring .gradual .queued)).modPoint c.point fun q => { q with queue := q.queue ++ [i] }).grant
            c.point).accepting st 0x22 [indexByte i]))))

/-- ABORT LIGHTPATH (R112): refused with WRONG_STATE without a live context, and with NOT_PERMITTED to an issuer that may not abort it; a
RETIRING context, or one with abort pending, is accepted without effect (R80, R75), and that this holds at a context that an expiry taken
first has made RETIRING too is the model's reading of R37 beside R112 and R170 (log entry 20); any other takes a local abort, with ABORT
frames to its neighbours (R111). The context then ends or retires by the table of R109 for its state: never lit, it ends at once (R89);
queued with a numeric attenuation, it retires GRADUAL in place (R90); as a holder, it gets abort pending while its setting is outstanding
(R75), and else retires GRADUAL with its first turn at once, its settle count given up (R76; that it is 0 then is log entry 11); settled, it
joins the tail of its step queue (R79). -/
def Obligations.AbortCommandStartsALocalAbort : Prop :=
  (∀ (s : State) (i : CtxIx) (c : Context) (e : Ending),
    (c.state = .probing ∨ c.state = .reserved ∨ c.state = .waitBudget → s.abortEffect i c e = s.endNeverLit i c e) ∧
    (∀ b, c.state = .ramping .queued b →
      (c.attenuation = .block → s.abortEffect i c e = s.endNeverLit i c e) ∧
      (c.attenuation ≠ .block →
        s.abortEffect i c e = s.enter i { c with ending := some e } (.retiring .gradual .queued))) ∧
    (∀ x b, c.state = .ramping x b → x ≠ .queued → c.abortPending = none →
      (s.outstanding[c.point] ≠ none → s.abortEffect i c e = s.setContext i (some { c with abortPending := some e })) ∧
      (s.outstanding[c.point] = none → s.abortEffect i c e = s.holderRetired c.point i c e .gradual)) ∧
    (c.state = .passed ∨ c.state = .inService → s.abortEffect i c e =
      ((s.enter i { c with ending := some e } (.retiring .gradual .queued)).modPoint c.point fun q =>
        { q with queue := q.queue ++ [i] }).grant c.point)) ∧
  ∀ (s : State) (st : Station) (id : Word32), Executes s st 0x23 (bytes32 id) →
    (NoneLive s id → exec .abortLightpath s = .next ((s.taken st).refusing st 0x23 0x0A [])) ∧
    ∀ i c, TheLive s id i c →
      ((c.state = .inService ∧ c.sides.role ≠ .head ∧ st ≠ 0) ∨ (st ≠ c.owner ∧ st ≠ 0) →
        exec .abortLightpath s = .next ((s.taken st).refusing st 0x23 0x01 [])) ∧
      (¬((c.state = .inService ∧ c.sides.role ≠ .head ∧ st ≠ 0) ∨ (st ≠ c.owner ∧ st ≠ 0)) →
        ((∃ m x, c.state = .retiring m x) →
          exec .abortLightpath s = .next ((s.taken st).accepting st 0x23 [indexByte i])) ∧
        ((∃ x n, c.state = .ramping x n ∧ c.abortPending ≠ none) →
          exec .abortLightpath s = .next ((s.taken st).accepting st 0x23 [indexByte i])) ∧
        (¬((∃ m x, c.state = .retiring m x) ∨ (∃ x n, c.state = .ramping x n ∧ c.abortPending ≠ none)) →
          exec .abortLightpath s = .next (((((s.taken st).offerTo c.sides.upstream id
              (.abort .abortedLocal s.nodeId)).offerTo c.sides.downstream id (.abort .abortedLocal s.nodeId)).abortEffect
                i c ⟨.abortedLocal, .abortedLocal, s.nodeId, c.hopIndex, none, none⟩).accepting st 0x23 [indexByte i])))

/-- RELEASE CONTEXT (R31): an ENDED record becomes FREE for its owner or station 0 (R162), and its index leaves the ended list and every
changed set; any other record is refused with WRONG_STATE, and nothing changes. An index above 47 is refused with BAD_ARGUMENT (R170). -/
def Obligations.ReleaseFreesAnEndedRecord : Prop :=
  (∀ (s : State) (st : Station) (n : Byte), Executes s st 0x24 [n] → 47 < n.toNat →
    exec .releaseContext s = .next ((s.taken st).refusing st 0x24 0x05 [])) ∧
  ∀ (s : State) (st : Station) (i : CtxIx), Executes s st 0x24 [indexByte i] →
    (((s.context i).all fun c => c.state != .ended) = true →
      exec .releaseContext s = .next ((s.taken st).refusing st 0x24 0x0A [])) ∧
    ∀ c, s.context i = some c → c.state = .ended →
      (st ≠ c.owner → st ≠ 0 → exec .releaseContext s = .next ((s.taken st).refusing st 0x24 0x01 [])) ∧
      (st = c.owner ∨ st = 0 → ∃ t, exec .releaseContext s = .next t ∧ t.context i = none ∧
        (∀ j, j ≠ i → t.context j = s.context j) ∧ t.endedList = s.endedList.erase i ∧
        (∀ (x : Station) (j : CtxIx), (t.changed[x])[j] = if j = i then false else (s.changed[x])[j]) ∧
        { t with contexts := s.contexts, endedList := s.endedList, changed := s.changed } =
          (s.taken st).accepting st 0x24 [indexByte i])

/-! ## Peer links -/

/-- Carrier arrival and carrier loss in every link state (R125, R126): a loss at an UP or DRAINING link empties the transmit queue, counts
each removed frame as a transmit drop and raises LINK_DOWN; the receive queue is kept. -/
def Obligations.CarrierChangesMoveTheLink : Prop :=
  ∀ (s : State) (d : Degree),
    exec (.carrierArrival d) s = .next (s.modLink d fun l =>
      { l with carrier := true, state := if l.state = .down then .up else l.state }) ∧
    ((s.link d).state = .down ∨ (s.link d).state = .disabled →
      exec (.carrierLoss d) s = .next (s.modLink d fun l => { l with carrier := false })) ∧
    ((s.link d).state = .up ∨ (s.link d).state = .draining → (s.link d).txDrops ≤ 65535 →
      exec (.carrierLoss d) s = .next { s.modLink d fun l => { l with
          carrier := false
          state := if l.state = .up then .down else .disabled
          tx := []
          txDrops := min 65535 (l.txDrops + l.tx.length) } with
        alerts := { s.alerts with linkDown := true } })

/-- A frame that the part offers to a link, where the context has one on that side (R22, R132), joins the tail of the transmit queue of an
UP link with fewer than 8 frames, and else is dropped and counted. A completed frame is TRUNCATED short of its declared length, else OK or
CRC_BAD by its check (R129, R181); one declared below 4 bytes, too few for kind, length and check, is CRC_BAD, and bytes past the declared
length are dropped (log entry 8). It joins the tail of the receive queue of an UP or DOWN link with room, whatever its status; at a full
queue it is discarded, with the overrun flag, the count and OVERRUN raised (R130); in DISABLED and DRAINING it is discarded uncounted. At a
departure (R132) the head of the transmit queue of an UP or DRAINING link leaves in full, as its bytes with its new check (R181), and a
DRAINING link whose queue it empties enters DISABLED (R127). With no frame in transmission the event changes nothing (log entry 6). -/
def Obligations.FramesCompleteAndDepart : Prop :=
  (∀ (s : State) (d : Degree) (id : Word32) (body : FrameBody), s.offer d id body = s.modLink d fun l =>
    if l.state = .up ∧ l.tx.length < 8 then { l with tx := l.tx ++ [⟨s.nodeId, id, body⟩] }
    else { l with txDrops := if l.txDrops < 65535 then l.txDrops + 1 else l.txDrops }) ∧
  (∀ (s : State) (d : Degree) (id : Word32) (body : FrameBody),
    s.offerTo none id body = s ∧ s.offerTo (some d) id body = s.offer d id body) ∧
  (∀ bytes : List Byte, (bytes.length < 2 → receiveStatus bytes = .truncated ∧ frameBytes bytes = bytes) ∧
    ∀ kind declared rest, bytes = kind :: declared :: rest →
      (bytes.length < declared.toNat → receiveStatus bytes = .truncated ∧ frameBytes bytes = bytes) ∧
      (declared.toNat < 4 → declared.toNat ≤ bytes.length →
        receiveStatus bytes = .crcBad ∧ frameBytes bytes = bytes.take (max 2 declared.toNat)) ∧
      ∀ text hi lo past, bytes = text ++ [hi, lo] ++ past → text.length + 2 = declared.toNat → 2 ≤ text.length →
        frameBytes bytes = text ++ [hi, lo] ∧
        (word16 hi lo = frameCheck text → receiveStatus bytes = .ok) ∧
        (word16 hi lo ≠ frameCheck text → receiveStatus bytes = .crcBad)) ∧
  (∀ (s : State) (d : Degree) (bytes : List Byte),
    ((s.link d).state = .up ∨ (s.link d).state = .down →
      ((s.link d).rx.length < 4 → exec (.frameCompletion d bytes) s = .next (s.modLink d fun l =>
        { l with rx := l.rx ++ [⟨frameBytes bytes, receiveStatus bytes⟩] })) ∧
      (4 ≤ (s.link d).rx.length → exec (.frameCompletion d bytes) s = .next { s.modLink d fun l =>
          { l with overrun := true, overruns := if l.overruns < 65535 then l.overruns + 1 else l.overruns } with
        alerts := { s.alerts with overrun := true } })) ∧
    ((s.link d).state = .disabled ∨ (s.link d).state = .draining → exec (.frameCompletion d bytes) s = .next s)) ∧
  (∀ (s : State) (d : Degree),
    (∀ f rest, (s.link d).tx = f :: rest → (s.link d).state = .up ∨ (s.link d).state = .draining →
      exec (.frameDeparture d) s = .next { s.modLink d fun l =>
          { l with tx := rest, state := if l.state = .draining ∧ rest = [] then .disabled else l.state } with
        outputs := s.outputs ++ [.frame d f.encode] }) ∧
    ((s.link d).tx = [] ∨ (s.link d).state = .down ∨ (s.link d).state = .disabled →
      exec (.frameDeparture d) s = .next s))

/-- A taken frame that is not acted on (R131) leaves its queue and is counted once on its link: one whose status is not OK as a receive
error; one of no known kind (R181), and one of a known kind that is short of its envelope, has sender 0 or this node's own ID, or has
malformed fields (R97), as malformed; one for which no live context stands, or whose context does not meet the row of its kind by its link,
its state or its hop index (R98), as stray. Nothing else changes. -/
def Obligations.UntakenFramesAreCountedOnce : Prop :=
  ∀ (s : State) (d : Degree) (f : RxFrame) (rest : List RxFrame) (malformed stray : State), (s.link d).rx = f :: rest →
    malformed = (s.modLink d fun l =>
      { l with rx := rest, malformed := if l.malformed < 65535 then l.malformed + 1 else l.malformed }) →
    stray = (s.modLink d fun l => { l with rx := rest, stray := if l.stray < 65535 then l.stray + 1 else l.stray }) →
    (f.status ≠ .ok → exec (.receiveError d) s = .next (s.modLink d fun l =>
      { l with rx := rest, rxErrors := if l.rxErrors < 65535 then l.rxErrors + 1 else l.rxErrors })) ∧
    (f.status = .ok → f.bytes.getD 0 0 = 0 ∨ 7 < (f.bytes.getD 0 0).toNat →
      exec (.unknownFrameKind d) s = .next malformed) ∧
    (∀ i kind, f.status = .ok →
      (i, kind) ∈ ([(.probe d, 1), (.clear d, 2), (.refuse d, 3), (.light d, 4), (.lit d, 5), (.abort d, 6), (.teardown d, 7)] :
        List (Instr × Byte)) →
      (f.bytes.getD 0 0 = kind → f.bytes.length < 10 → exec i s = .next malformed) ∧
      ∀ (declared hi lo : Byte) (sender : Word16) (id : Word32) (fields : List Byte),
        f.bytes = [kind, declared] ++ bytes16 sender ++ bytes32 id ++ fields ++ [hi, lo] →
        sender = 0 ∨ sender = s.nodeId ∨ fieldsMalformed kind fields → exec i s = .next malformed) ∧
    (∀ frame i, f.status = .ok → parseFrame s.nodeId f.bytes = some frame → NoneLive s frame.lightpathId →
      (i, frame.body.kind) ∈ ([(.clear d, 2), (.refuse d, 3), (.light d, 4), (.lit d, 5), (.abort d, 6), (.teardown d, 7)] :
        List (Instr × Byte)) →
      exec i s = .next stray) ∧
    (∀ frame i c, f.status = .ok → parseFrame s.nodeId f.bytes = some frame → TheLive s frame.lightpathId i c →
      (∀ hop, frame.body = .clear hop →
        c.sides.downstream ≠ some d ∨ c.state ≠ .probing ∨ (∀ k, c.hopIndex = some k → hop ≠ k + 1) →
        exec (.clear d) s = .next stray) ∧
      (∀ cause node hop slot, frame.body = .refuse cause node hop slot → c.sides.downstream ≠ some d ∨ c.state ≠ .probing →
        exec (.refuse d) s = .next stray) ∧
      (frame.body = .light → c.sides.upstream ≠ some d ∨ c.state ≠ .reserved → exec (.light d) s = .next stray) ∧
      (frame.body = .lit → c.sides.downstream ≠ some d ∨ c.state ≠ .passed → exec (.lit d) s = .next stray) ∧
      (∀ origin node, frame.body = .abort origin node → c.sides.upstream ≠ some d → c.sides.downstream ≠ some d →
        exec (.abort d) s = .next stray) ∧
      (frame.body = .teardown → c.sides.upstream ≠ some d ∨ c.state ≠ .inService → exec (.teardown d) s = .next stray))

/-! ## The turn-up protocol -/

/-- A well-formed PROBE at an open node with its ID not live, a record to choose and its run FREE is accepted: at a transit (R103) it claims
the run on both sides, creates the TRANSIT context in PROBING and offers the PROBE for the next node; at the tail (R104) it claims the
ingress side, creates the TAIL context in RESERVED and answers CLEAR. The window and the step that it carries are those of its bytes after
the clamp of R97 (ComposedFrameReadsBack), and the frame has left the head of its receive queue (R131). -/
def Obligations.AcceptedProbeCreatesAContext : Prop :=
  (∀ (s : State) (d : Degree), s.removeHead d = s.modLink d fun l => { l with rx := l.rx.tail }) ∧
  ∀ (s : State) (d : Degree) (n : Word16) (id : Word32) (k f w window step len : Nat) (route : List Byte) (i : CtxIx),
    Heads s d ⟨n, id, .probe k f w window step len route⟩ → s.nodeOpen = true → NoneLive s id → Chooses s i →
    (∀ e : Degree, k + 1 < len → (route.getD k 0).toNat = e.val → e ≠ d → (s.link e).state = .up →
      FreeOn s [ingressMap d, egressMap e] ⟨f, w⟩ →
      exec (.probe d) s = .next ((((s.removeHead d).writeRun [ingressMap d, egressMap e] ⟨f, w⟩ (.held i)).create i
        { state := .probing, sides := .transit d e, adopted := false, rampOnClear := none, lightpathId := id,
          owner := ⟨e.val + 1, by omega⟩, run := ⟨f, w⟩, hopIndex := some k, routeLength := some len, route := none,
          target := targetOf (s.point (egressPoint e)).density w, window := window, baseStep := some step, step := some step,
          attenuation := .block, journal := [], charge := none, lastMeasured := none, reference := none,
          abortPending := none, ending := none, watchTimer := none } .probing).offer e id
            (.probe (k + 1) f w window step len route))) ∧
    (∀ drop : Fin 16, k + 1 = len → (route.getD k 0).toNat = drop.val → FreeOn s [ingressMap d] ⟨f, w⟩ →
      exec (.probe d) s = .next ((((s.removeHead d).writeRun [ingressMap d] ⟨f, w⟩ (.held i)).create i
        { state := .reserved, sides := .tail d drop, adopted := false, rampOnClear := none, lightpathId := id,
          owner := ⟨d.val + 1, by omega⟩, run := ⟨f, w⟩, hopIndex := some k, routeLength := some len, route := none,
          target := targetOf (s.point (dropPoint d)).density w, window := window, baseStep := some step, step := some step,
          attenuation := .block, journal := [], charge := none, lastMeasured := none, reference := none,
          abortPending := none, ending := none, watchTimer := none } .reserved).offer d id (.clear (len - 1))))

/-- A refused PROBE (R102) offers one REFUSE on the link it came on, with the first cause that applies, this node's ID and the PROBE's hop,
and changes nothing else beside its leaving the queue: NODE_CLOSED, DUPLICATE_ID, NO_CONTEXT, ROUTE_INVALID at a transit, and SLOT_BUSY with
the lowest slot that is not FREE. -/
def Obligations.RefusedProbeAnswersRefuse : Prop :=
  ∀ (s : State) (d : Degree) (n : Word16) (id : Word32) (k f w window step len : Nat) (route : List Byte),
    Heads s d ⟨n, id, .probe k f w window step len route⟩ → ∀ answer : Cause → Option Nat → State,
    (∀ cause slot, answer cause slot = (s.removeHead d).offer d id (.refuse cause s.nodeId k slot)) →
    (s.nodeOpen = false → exec (.probe d) s = .next (answer .nodeClosed none)) ∧
    (s.nodeOpen = true → ¬NoneLive s id → exec (.probe d) s = .next (answer .duplicateId none)) ∧
    (s.nodeOpen = true → NoneLive s id →
      ((∀ i, s.context i ≠ none) → s.endedList = [] → exec (.probe d) s = .next (answer .noContext none)) ∧
      ∀ i, Chooses s i →
        (∀ e : Degree, k + 1 < len → (route.getD k 0).toNat = e.val →
          (e = d ∨ (s.link e).state ≠ .up → exec (.probe d) s = .next (answer .routeInvalid none)) ∧
          (e ≠ d → (s.link e).state = .up → ∀ q, f ≤ q → q < f + w →
            (s.slotAt (ingressMap d) q ≠ .free ∨ s.slotAt (egressMap e) q ≠ .free) →
            (∀ j, f ≤ j → j < q → s.slotAt (ingressMap d) j = .free ∧ s.slotAt (egressMap e) j = .free) →
            exec (.probe d) s = .next (answer .slotBusy (some q)))) ∧
        (k + 1 = len → ∀ q, f ≤ q → q < f + w → s.slotAt (ingressMap d) q ≠ .free →
          (∀ j, f ≤ j → j < q → s.slotAt (ingressMap d) j = .free) →
          exec (.probe d) s = .next (answer .slotBusy (some q))))

/-- A CLEAR from downstream with hop index k + 1 at a PROBING context (R105): the context enters RESERVED; a transit passes the CLEAR on
upstream with its own k; a head with ramp on clear joins its budget line in the same event (R55), and one without it waits. -/
def Obligations.ClearReservesTheContext : Prop :=
  ∀ (s : State) (d : Degree) (n : Word16) (id : Word32) (k : Nat) (i : CtxIx) (c : Context),
    Heads s d ⟨n, id, .clear (k + 1)⟩ → TheLive s id i c → c.state = .probing → c.hopIndex = some k →
    (∀ up, c.sides = .transit up d → exec (.clear d) s =
      .next (((s.removeHead d).enter i c .reserved).offer up id (.clear k))) ∧
    (∀ add, c.sides = .head add d → c.rampOnClear ≠ some true → exec (.clear d) s =
      .next ((s.removeHead d).enter i c .reserved)) ∧
    (∀ add, c.sides = .head add d → c.rampOnClear = some true → exec (.clear d) s =
      .next (((((s.removeHead d).enter i c .reserved).enter i c .waitBudget).modPoint (egressPoint d) fun q =>
        { q with line := q.line ++ [i] }).attempt (egressPoint d)))

/-- A REFUSE from downstream at a PROBING context (R106): the context enters ENDED with cause REFUSED and the frame's detail, its run is
FREE on every map it uses, its index joins the ended list and the two changed sets (R32), a transit passes the REFUSE on upstream, and
nothing else changes. The context is in no line or queue and uncharged, as its state says (R55, R59, R20). -/
def Obligations.RefuseEndsAProbingContext : Prop :=
  ∀ (s : State) (d : Degree) (n : Word16) (id : Word32) (cause : Cause) (node : Word16) (hop : Nat) (slot : Option Nat)
    (i : CtxIx) (c : Context),
    Heads s d ⟨n, id, .refuse cause node hop slot⟩ → TheLive s id i c → c.state = .probing →
    c.sides.downstream = some d → c.charge = none → i ∉ (s.point c.point).line → i ∉ (s.point c.point).queue →
    ∃ t, exec (.refuse d) s = .next t ∧
      t.context i = some { c with
        state := .ended, watchTimer := none, ending := some ⟨.refused, cause, node, some hop, slot, none⟩
        charge := none, lastMeasured := none, reference := none, abortPending := none } ∧
      (∀ j, j ≠ i → t.context j = s.context j) ∧ t.endedList = s.endedList ++ [i] ∧
      (∀ (m : MapIx) (q : Nat), q < 384 →
        t.slotAt m q = if m ∈ c.sides.mapsUsed ∧ c.run.covers q = true then .free else s.slotAt m q) ∧
      (∀ (x : Station) (j : CtxIx), (t.changed[x])[j] =
        if j = i ∧ (x = 0 ∨ x = c.owner) then true else (s.changed[x])[j]) ∧
      t.links = ((s.removeHead d).offerTo c.sides.upstream id (.refuse cause node hop slot)).links ∧
      { t with contexts := s.contexts, endedList := s.endedList, maps := s.maps, changed := s.changed, links := s.links } = s

/-- A LIGHT from upstream at a RESERVED context takes it into WAIT_BUDGET at the tail of its point's line, with an admission attempt (R55,
R107). A LIT from downstream at a PASSED context takes it IN_SERVICE with its run LIT on every map it uses and its watch timer disarmed; a
transit passes the LIT on upstream; nothing else changes (R11, R108). -/
def Obligations.LightAndLitMoveTheContext : Prop :=
  ∀ (s : State) (d : Degree) (n : Word16) (id : Word32) (i : CtxIx) (c : Context), TheLive s id i c →
    (Heads s d ⟨n, id, .light⟩ → c.sides.upstream = some d → c.state = .reserved → exec (.light d) s =
      .next ((((s.removeHead d).enter i c .waitBudget).modPoint c.point fun q =>
        { q with line := q.line ++ [i] }).attempt c.point)) ∧
    (Heads s d ⟨n, id, .lit⟩ → c.sides.downstream = some d → c.state = .passed → ∃ t, exec (.lit d) s = .next t ∧
      t.context i = some { c with state := .inService, watchTimer := none } ∧
      (∀ j, j ≠ i → t.context j = s.context j) ∧
      (∀ (m : MapIx) (q : Nat), q < 384 →
        t.slotAt m q = if m ∈ c.sides.mapsUsed ∧ c.run.covers q = true then .lit i else s.slotAt m q) ∧
      (∀ (x : Station) (j : CtxIx), (t.changed[x])[j] =
        if j = i ∧ (x = 0 ∨ x = c.owner) then true else (s.changed[x])[j]) ∧
      t.links = ((s.removeHead d).offerTo c.sides.upstream id .lit).links ∧
      { t with contexts := s.contexts, maps := s.maps, changed := s.changed, links := s.links } = s)

/-- An ABORT from a neighbour (R109, R110): at a RETIRING context, or one with abort pending, nothing but its leaving the queue; else it is
passed on to the other neighbour, where the two lie on different links, and acts by the context's state: a context that never lit ends at
once (R89); a queued one with a numeric attenuation retires GRADUAL in place (R90); a holder whose setting is outstanding gets abort pending
(R75), and one counting sweeps retires GRADUAL as the holder, its count abandoned (R76; that the settle count is 0 then is the model's
reading, log entry 11); a settled one joins the tail of its step queue (R79). A context that is ended at once leaves its point's line and
queue, its charge leaves the load, its run becomes FREE and its record ENDED (R53, R89), and an admission attempt follows where it was in
the line or charged. -/
def Obligations.AbortActsByTheState : Prop :=
  (∀ (s : State) (i : CtxIx) (c : Context) (e : Ending), ∃ v : State,
    s.endNeverLit i c e = (if i ∈ (s.point c.point).line ∨ c.charge ≠ none then v.attempt c.point else v) ∧
    v.context i = some { c with
      state := .ended, watchTimer := none, ending := some e
      charge := none, lastMeasured := none, reference := none, abortPending := none } ∧
    (∀ j, j ≠ i → v.context j = s.context j) ∧ v.endedList = s.endedList ++ [i] ∧
    v.point c.point = { s.point c.point with
      line := (s.point c.point).line.erase i, queue := (s.point c.point).queue.erase i
      load := (s.point c.point).load - c.charge.getD 0 } ∧
    (∀ p, p ≠ c.point → v.point p = s.point p) ∧
    (∀ (m : MapIx) (q : Nat), q < 384 →
      v.slotAt m q = if m ∈ c.sides.mapsUsed ∧ c.run.covers q = true then .free else s.slotAt m q) ∧
    (∀ (x : Station) (j : CtxIx), (v.changed[x])[j] = if j = i ∧ (x = 0 ∨ x = c.owner) then true else (s.changed[x])[j]) ∧
    { v with contexts := s.contexts, endedList := s.endedList, points := s.points, maps := s.maps, changed := s.changed } = s) ∧
  ∀ (s : State) (d : Degree) (n : Word16) (id : Word32) (origin : Cause) (node : Word16) (i : CtxIx) (c : Context)
    (other : Option Degree) (u : State) (e : Ending),
    Heads s d ⟨n, id, .abort origin node⟩ → TheLive s id i c →
    (c.sides.upstream = some d ∧ other = (if c.sides.downstream = some d then none else c.sides.downstream) ∨
      c.sides.downstream = some d ∧ other = (if c.sides.upstream = some d then none else c.sides.upstream)) →
    u = (s.removeHead d).offerTo other id (.abort origin node) → e = ⟨.abortedRemote, origin, node, none, none, none⟩ →
    (∀ m x, c.state = .retiring m x → exec (.abort d) s = .next (s.removeHead d)) ∧
    (∀ x b, c.state = .ramping x b → c.abortPending ≠ none → exec (.abort d) s = .next (s.removeHead d)) ∧
    (c.state = .probing ∨ c.state = .reserved ∨ c.state = .waitBudget → exec (.abort d) s = .next (u.endNeverLit i c e)) ∧
    (∀ b, c.state = .ramping .queued b → c.abortPending = none →
      (c.attenuation = .block → exec (.abort d) s = .next (u.endNeverLit i c e)) ∧
      (c.attenuation ≠ .block → exec (.abort d) s =
        .next (u.enter i { c with ending := some e } (.retiring .gradual .queued)))) ∧
    (∀ x b, c.state = .ramping x b → x ≠ .queued → c.abortPending = none →
      (s.outstanding[c.point] ≠ none → exec (.abort d) s =
        .next (u.setContext i (some { c with abortPending := some e }))) ∧
      (s.outstanding[c.point] = none → exec (.abort d) s = .next (u.holderRetired c.point i c e .gradual))) ∧
    (c.state = .passed ∨ c.state = .inService → exec (.abort d) s =
      .next (((u.enter i { c with ending := some e } (.retiring .gradual .queued)).modPoint c.point fun q =>
        { q with queue := q.queue ++ [i] }).grant c.point))

/-- A TEARDOWN from upstream at an IN_SERVICE transit or tail (R114): the context enters RETIRING HARD with cause COMPLETED at the tail of
its step queue, with a lock grant (R79), and a transit whose neighbours lie on different links passes the TEARDOWN on downstream. At any
other state, or on any other link, it is stray (R98). -/
def Obligations.TeardownFrameRetiresHard : Prop :=
  ∀ (s : State) (d : Degree) (n : Word16) (id : Word32) (i : CtxIx) (c : Context),
    Heads s d ⟨n, id, .teardown⟩ → TheLive s id i c →
    (c.sides.upstream = some d → c.state = .inService → exec (.teardown d) s =
      .next (((((s.removeHead d).enter i
        { c with ending := some ⟨.completed, .completed, s.nodeId, c.hopIndex, none, none⟩ }
        (.retiring .hard .queued)).modPoint c.point fun q => { q with queue := q.queue ++ [i] }).grant c.point).offerTo
          (if c.sides.downstream = some d then none else c.sides.downstream) id .teardown)) ∧
    (c.sides.upstream ≠ some d ∨ c.state ≠ .inService → exec (.teardown d) s = .next ((s.removeHead d).modLink d fun l =>
      { l with stray := if l.stray < 65535 then l.stray + 1 else l.stray }))

/-! ## The monitor and actuator ports and the timers -/

/-- A sweep record is discarded, with the discard count and MONITOR, where its point is above 15, its readings are not 384, as in every
record of other than 770 bytes (R182), or its sequence repeats the point's last one (R138); else the sequence is written and every charged
context at the point takes the group power of its run as its last measured value, an adopted one without a reference that value as its
reference, before the holder's counting (R73, R139). A group power converts back the sum over the run's slots, a slot at FLOOR or below −400
for nothing and one above +250 as +250 (R43), with the floor mark exactly where every slot counts for nothing, and the saturated mark where
one was clamped or the sum is too large (R44). The sweep counts nothing while no context holds the lock, while the holder counts no sweeps,
its setting outstanding or its turn HARD, and while a service request is ACTIVE (R65, R73, R82, R85, R92). -/
def Obligations.SweepRecordIsDiscardedOrAccepted : Prop :=
  (∀ (readings : List Word16) (run : Run) (taken : List Word16) (sum : Nat),
    taken = (List.range' run.first run.width).map (fun k => readings.getD k 0) → run.first + run.width ≤ readings.length →
    sum = (taken.map fun w => if w = 0x8000#16 ∨ w.toInt < -400 then 0 else forward (min 250 w.toInt)).sum →
    (groupPower readings run).power = (reverse sum).power ∧
    ((groupPower readings run).floor = true ↔ ∀ w ∈ taken, w = 0x8000#16 ∨ w.toInt < -400) ∧
    ((groupPower readings run).floor = true ↔ sum < 1000) ∧
    ((groupPower readings run).saturated = true ↔ (∃ w ∈ taken, 250 < w.toInt) ∨ 3162000000 < sum)) ∧
  (∀ readings : List Word16, readingWords (readings.flatMap bytes16) = readings) ∧
  (∀ (s : State) (p : PointIx),
    ((s.point p).holder = none → s.countSweep p = s) ∧
    ((s.point p).settle = 0 → s.countSweep p = s) ∧
    (∀ i c, (s.point p).holder = some i → s.context i = some c →
      (∃ b, c.state = .ramping .actuating b) ∨ c.state = .retiring .gradual .actuating ∨ (∃ x, c.state = .retiring .hard x) →
      s.countSweep p = s) ∧
    (s.turnAgrees p = true → s.outstanding[p] ≠ none ∨ (∃ r, (s.point p).service = .active r) → s.countSweep p = s)) ∧
  (∀ (s : State) (bytes : List Byte), bytes.length ≠ 770 → exec (.sweepRecord bytes) s = .next { s with
    sweepDiscards := if s.sweepDiscards < 65535 then s.sweepDiscards + 1 else s.sweepDiscards
    alerts := { s.alerts with monitor := true } }) ∧
  ∀ (s : State) (port sequence : Byte) (readings : List Byte),
    (15 < port.toNat ∨ readings.length ≠ 768 ∨
        (∃ p : PointIx, port.toNat = p.val ∧ (s.point p).lastSequence = some sequence) →
      exec (.sweepRecord (port :: sequence :: readings)) s = .next { s with
        sweepDiscards := if s.sweepDiscards < 65535 then s.sweepDiscards + 1 else s.sweepDiscards
        alerts := { s.alerts with monitor := true } }) ∧
    (∀ p : PointIx, port.toNat = p.val → readings.length = 768 → (s.point p).lastSequence ≠ some sequence →
      ∃ u : State, exec (.sweepRecord (port :: sequence :: readings)) s = .next (u.countSweep p) ∧
        (∀ q, u.point q = if q = p then { s.point p with lastSequence := some sequence } else s.point q) ∧
        (∀ j, s.context j = none → u.context j = none) ∧
        (∀ j c, s.context j = some c → u.context j = some
          (if c.point = p ∧ c.charge ≠ none then { c with
              lastMeasured := some (groupPower (readingWords readings) c.run)
              reference := if c.adopted = true ∧ c.state = .inService ∧ c.reference = none then
                some ⟨(groupPower (readingWords readings) c.run).power, (groupPower (readingWords readings) c.run).floor⟩
                else c.reference }
            else c)) ∧
        { u with points := s.points, contexts := s.contexts } = s)

/-- The settle of a forward turn at an accepted sweep (R65, R67, R70): with a count above 1 it falls and the sweep timer is armed again; at
a count of 1 with the guard kept, a power within the window settles the context, which hands it on with its reference taken, the other
references at the point refreshed, the lock released, and a tail's run LIT. A lock grant follows. -/
def Obligations.ForwardSettleCountsSweeps : Prop :=
  ∀ (s : State) (p : PointIx) (i : CtxIx) (c : Context) (b k : Nat),
    (s.point p).holder = some i → s.context i = some c → c.state = .ramping .settling b → (s.point p).settle = k + 1 →
    (0 < k → s.countSweep p = s.modPoint p fun q => { q with settle := k, sweepTimer := some s.timing.sweepWait }) ∧
    (k = 0 → GuardKept s p i → ∀ m, c.lastMeasured = some m → (c.target - m.power).natAbs ≤ c.window →
      ∃ u : State, s.countSweep p = u.grant p ∧
        Settles (s.modPoint p fun q => { q with settle := 0, sweepTimer := none }) u p i c m)

/-- The other ends of a turn at its measurement sweep. A forward one with the guard kept and the power outside the window ends in fault
REACH_SHORT at attenuation 0 or OVER_REACH at 250 and else goes back to the step queue with its backoff count cleared (R49, R67, R71); a
backoff with the guard kept goes back with its count (R69). With the guard violated, either is undone by its newest journal record, at half
the step size, or, at the third violation or at a record from BLOCK, ends in fault GUARD (R51, R67, R68). A gradual turn ends at its sweep
without a test (R83). With a count above 1 a backoff counts on. -/
def Obligations.MeasurementSweepDecidesTheTurn : Prop :=
  ∀ (s v : State) (p : PointIx) (i : CtxIx) (c : Context) (k : Nat),
    (s.point p).holder = some i → s.context i = some c → (s.point p).settle = k + 1 →
    v = (s.modPoint p fun q => { q with settle := 0, sweepTimer := none }) →
    (∀ sub b, c.state = .ramping sub b → sub = .settling ∨ sub = .backoff → k = 0 → ¬GuardKept s p i →
      (2 ≤ b → s.countSweep p = v.faulted p i c .guardFault) ∧
      (∀ older a z, b < 2 → c.journal = older ++ [⟨.tenths a, z⟩] → s.countSweep p = (v.setContext i (some { c with
        journal := older, attenuation := .tenths a, step := c.step.map fun x => max 1 (x / 2)
        state := .ramping .backoff (b + 1) })).offerSetting p c.run (.attenSet a)) ∧
      ((∀ older a z, c.journal ≠ older ++ [⟨.tenths a, z⟩]) → s.countSweep p = v.faulted p i c .guardFault)) ∧
    (∀ b m, c.state = .ramping .settling b → k = 0 → GuardKept s p i → c.lastMeasured = some m →
      (c.target - m.power > c.window → c.attenuation = .tenths 0 → s.countSweep p = v.faulted p i c .reachShort) ∧
      (c.target - m.power < -c.window → c.attenuation = .tenths 250 → s.countSweep p = v.faulted p i c .overReach) ∧
      (c.target - m.power > c.window ∧ c.attenuation ≠ .tenths 0 ∨ c.target - m.power < -c.window ∧ c.attenuation ≠ .tenths 250 →
        s.countSweep p = ((v.setContext i (some { c with state := .ramping .queued 0 })).modPoint p fun q =>
          { q with holder := none, queue := q.queue ++ [i] }).grant p)) ∧
    (∀ b, c.state = .ramping .backoff b →
      (0 < k → s.countSweep p = s.modPoint p fun q => { q with settle := k, sweepTimer := some s.timing.sweepWait }) ∧
      (k = 0 → GuardKept s p i →
        s.countSweep p = ((v.setContext i (some { c with state := .ramping .queued b })).modPoint p fun q =>
          { q with holder := none, queue := q.queue ++ [i] }).grant p)) ∧
    (c.state = .retiring .gradual .settling → k = 0 →
      s.countSweep p = ((v.setContext i (some { c with state := .retiring .gradual .queued })).modPoint p fun q =>
        { q with holder := none, queue := q.queue ++ [i] }).grant p)

/-- Acknowledgements (R144, R145): an unmatched one, by its tag, its result or its length, changes nothing but the count and ACTUATOR; one
that matches removes its entry and delivers OK or REJECT, whatever service request waits. For an ACTIVE service request the turn ends with
that result, a lock grant follows, and a REJECT raises ACTUATOR (R92). For a holder: a forward or backoff setting with OK is followed by a
settle of two sweeps, and with REJECT by fault ACTUATOR_REJECT (R64, R69, R72); with abort pending, by RETIRING as the holder, GRADUAL on OK
and HARD on REJECT (R75); a gradual ATTEN SET with OK by a settle of one sweep, and a gradual setting with REJECT by a hard turn (R82). -/
def Obligations.AcknowledgementEndsTheSetting : Prop :=
  ∀ (s : State),
    (∀ bytes : List Byte, (∀ tag result, bytes = [tag, result] →
        1 < result.toNat ∨ ∀ p : PointIx, ∀ e ∈ s.outstanding[p], e.tag ≠ tag) →
      exec (.acknowledgement bytes) s = .next { s with
        unmatchedAcks := if s.unmatchedAcks < 65535 then s.unmatchedAcks + 1 else s.unmatchedAcks
        alerts := { s.alerts with actuator := true } }) ∧
    (∀ (p : PointIx) (event : Instr) (o : SettingOutcome) (u : State), Delivers s p event o u → o ≠ .timeout →
      (∀ r, (s.point p).service = .active r →
        exec event s = .next (({ u with
            alerts := { u.alerts with actuator := u.alerts.actuator || decide (o = SettingOutcome.reject) } }.modPoint p
          fun q => { q with service := .none, lastService := some o }).grant p)) ∧
      (∀ i c, HolderAt s p i c → ∃ t, exec event s = .next t ∧ OutcomeActs u p i c o t))

/-- The end of a darkening at the outcome of a hard turn's BLOCK (R86), or at the OK of a gradual one (R82): with OK (R87) the context is
discharged, the lock released, its run FREE, the record ENDED with its cause, and a COMPLETED head sends TEARDOWN; with REJECT or TIMEOUT
(R88) the same but for BARRED entries, cause DARK_UNCONFIRMED and its alert. The change is notified (R32), an admission attempt and a lock
grant follow, and nothing else changes. -/
def Obligations.HardBlockOutcomeEndsTheDarkening : Prop :=
  ∀ (s w : State) (p : PointIx) (event : Instr) (o : SettingOutcome) (i : CtxIx) (c : Context) (e : Ending) (q : Nat),
    Delivers s p event o w → HolderAt s p i c → c.point = p →
    (c.state = .retiring .hard .actuating ∨ o = .ok ∧ c.state = .retiring .gradual .actuating ∧ c.attenuation = .block) →
    c.ending = some e → c.charge = some q →
    ∃ u : State, exec event s = .next (u.attempt p) ∧
      u.context i = some { c with
        state := .ended, watchTimer := none, charge := none, lastMeasured := none, reference := none, abortPending := none
        ending := some (if o = .ok then e else { e with cause := .darkUnconfirmed }) } ∧
      (∀ j, j ≠ i → u.context j = s.context j) ∧ u.endedList = s.endedList ++ [i] ∧
      u.point p = { s.point p with load := (s.point p).load - q, holder := none } ∧
      (∀ x, x ≠ p → u.point x = s.point x) ∧
      (∀ (m : MapIx) (k : Nat), k < 384 → u.slotAt m k =
        if m ∈ c.sides.mapsUsed ∧ c.run.covers k = true then (if o = .ok then .free else .barred) else s.slotAt m k) ∧
      u.alerts = (if o = .ok then s.alerts else { s.alerts with darkUnconfirmed := true }) ∧
      (∀ (x : Station) (j : CtxIx), (u.changed[x])[j] = if j = i ∧ (x = 0 ∨ x = c.owner) then true else (s.changed[x])[j]) ∧
      (∀ add d, c.sides = .head add d → (if o = .ok then e.cause else e.origin) = .completed →
        u.links = (s.offer d c.lightpathId .teardown).links) ∧
      (c.sides.role ≠ .head ∨ (if o = .ok then e.cause else e.origin) ≠ .completed → u.links = s.links) ∧
      { u with
        contexts := w.contexts, endedList := w.endedList, points := w.points, maps := w.maps, alerts := w.alerts
        changed := w.changed, links := w.links } = w

/-- The actuator timer of an outstanding entry expires with no time left (R146): the entry leaves the table, a setting still waiting to be
sent is withdrawn (of several with its tag the last, log entry 9), and TIMEOUT is delivered: an ACTIVE service request ends with it and
ACTUATOR raised (R92); a forward or backoff setting ends in fault ACTUATOR_TIMEOUT (R64, R69, R72), or, with abort pending, in RETIRING HARD
(R75); a gradual setting is followed by a hard turn (R82). With no setting outstanding, or with time left to it, no expiry occurs. -/
def Obligations.ActuatorTimerExpiryDeliversTimeout : Prop :=
  ∀ (s : State) (p : PointIx),
    ((∀ e, s.outstanding[p] = some e → e.timer ≠ 0) → exec (.actuatorTimerExpiry p) s = .next s) ∧
    (∀ u, Delivers s p (.actuatorTimerExpiry p) .timeout u →
      (∀ r, (s.point p).service = .active r →
        exec (.actuatorTimerExpiry p) s = .next (({ u with alerts := { u.alerts with actuator := true } }.modPoint p
          fun q => { q with service := .none, lastService := some .timeout }).grant p)) ∧
      (∀ i c, HolderAt s p i c → ∃ t, exec (.actuatorTimerExpiry p) s = .next t ∧ OutcomeActs u p i c .timeout t))

/-- A setting that a point offers (R143) takes the next tag value, or the first one after it that no entry holds, becomes the point's entry
with its timer armed with actuator_wait, and is placed last for transmission. The port sends settings one at a time, in the order they were
placed, each as the bytes of its kind (R142, R182); that an event ends the sending of one and begins the next is the model's reading (log
entry 9), and the log of outputs is the model's own (log entry 13). -/
def Obligations.SettingsAreSentInOrder : Prop :=
  (∀ (tag : Byte) (p : PointIx) (run : Run) (a : Nat) (port : Fin 16) (d : Degree) (m : SettingBody → List Byte),
    (∀ body, m body = (⟨tag, p, run, body⟩ : Setting).encode) →
    m .block = [tag, 3, indexByte p] ++ nat16 run.first ++ [byte run.width] ∧
    m (.attenSet a) = [tag, 2, indexByte p] ++ nat16 run.first ++ [byte run.width, byte a] ∧
    m (.routeSet (.addPort port) a) = [tag, 1, indexByte p] ++ nat16 run.first ++ [byte run.width, 1, indexByte port, byte a] ∧
    m (.routeSet (.ingress d) a) = [tag, 1, indexByte p] ++ nat16 run.first ++ [byte run.width, 2, indexByte d, byte a] ∧
    m (.routeSet (.dropPort port) a) = [tag, 1, indexByte p] ++ nat16 run.first ++ [byte run.width, 3, indexByte port, byte a]) ∧
  (∀ (s : State) (p : PointIx) (run : Run) (body : SettingBody), ∃ tag, TagGiven s tag ∧
    s.offerSetting p run body = { s with
      nextTag := tag + 1
      outstanding := put s.outstanding p (some ⟨tag, body.kind, s.timing.actuatorWait⟩)
      toSend := s.toSend ++ [⟨tag, p, run, body⟩] }) ∧
  (∀ s : State,
    (∀ m rest, s.toSend = m :: rest → exec .settingTransmission s = .next { s with
      toSend := rest, sending := some m, outputs := s.outputs ++ (s.sending.map fun x => Output.setting x.encode).toList }) ∧
    (s.toSend = [] → exec .settingTransmission s = .next { s with
      sending := none, outputs := s.outputs ++ (s.sending.map fun x => Output.setting x.encode).toList }))

/-- On each entry into a state the watch timer is loaded with the state's value, or disarmed (R34), and the change is notified (R32). When
the remaining time of a context has reached 0 its timer expires (R36): ABORT with cause TIMEOUT goes to every known neighbour; a context in
PROBING, RESERVED or WAIT_BUDGET ends at once (R89), with the state it was in recorded; one in PASSED enters RETIRING GRADUAL at the tail of
its step queue. A timer that another event has disarmed or reloaded is not at 0, and no expiry occurs (R37). -/
def Obligations.WatchTimerExpiryAborts : Prop :=
  (∀ (s t : State) (i : CtxIx) (c : Context) (st : CtxState) (k len : Nat), t = s.enter i c st →
    c.hopIndex.getD 0 = k → c.routeLength.getD 0 = len →
    t.context i = some { c with
      state := st
      watchTimer := match st with
        | .probing => some (min 86400000 (s.timing.probeHop * (len - k)))
        | .reserved => some (min 86400000 (s.timing.reserveHold + s.timing.lightHop * k))
        | .waitBudget => some (min 86400000 s.timing.budgetWait)
        | .passed => some (min 86400000 (s.timing.litHop * (len - 1 - k)))
        | _ => none } ∧
    (∀ j, j ≠ i → t.context j = s.context j) ∧
    (∀ (x : Station) (j : CtxIx), (t.changed[x])[j] = if j = i ∧ (x = 0 ∨ x = c.owner) then true else (s.changed[x])[j]) ∧
    { t with contexts := s.contexts, changed := s.changed } = s) ∧
  ∀ (s : State) (i : CtxIx),
    ((∀ c, s.context i = some c → c.watchTimer ≠ some 0) → exec (.watchTimerExpiry i) s = .next s) ∧
    (∀ c w u e, s.context i = some c → c.watchTimer = some 0 →
      u = (s.offerTo c.sides.upstream c.lightpathId (.abort .timeout s.nodeId)).offerTo c.sides.downstream c.lightpathId
        (.abort .timeout s.nodeId) →
      e = (⟨.timeout, .timeout, s.nodeId, c.hopIndex, none, some w⟩ : Ending) →
      ((c.state, w) ∈ [(CtxState.probing, TimedState.probing), (.reserved, .reserved), (.waitBudget, .waitBudget)] →
        exec (.watchTimerExpiry i) s = .next (u.endNeverLit i c e)) ∧
      (c.state = .passed → w = .passed → exec (.watchTimerExpiry i) s =
        .next (((u.enter i { c with ending := some e } (.retiring .gradual .queued)).modPoint c.point fun q =>
          { q with queue := q.queue ++ [i] }).grant c.point)))

/-- The sweep timer of a settle expires with no time left: a gradual turn falls back to HARD with a BLOCK at once, its end cause unchanged
(R84, R85); a forward or backoff settle ends in fault MONITOR_TIMEOUT, with ABORT to the neighbours, RETIRING HARD as the holder, and a
BLOCK (R66, R72). The settle count is then 0 and the timer disarmed (log entry 11). A timer that a sweep has armed again or disarmed is not
at 0, and no expiry occurs. -/
def Obligations.SweepTimerExpiryTurnsHard : Prop :=
  ∀ (s : State) (p : PointIx),
    ((s.point p).sweepTimer ≠ some 0 → exec (.sweepTimerExpiry p) s = .next s) ∧
    (∀ i c, (s.point p).sweepTimer = some 0 → (s.point p).holder = some i → s.context i = some c →
      (c.state = .retiring .gradual .settling → exec (.sweepTimerExpiry p) s =
        .next ((s.modPoint p fun q => { q with settle := 0, sweepTimer := none }).turnBegun p i c .hard)) ∧
      (∀ x b, c.state = .ramping x b → exec (.sweepTimerExpiry p) s = .next (s.faulted p i c .monitorTimeout)) ∧
      (∀ x b, c.state = .ramping x b → ∃ t, exec (.sweepTimerExpiry p) s = .next t ∧
        t.context i = some { c with
          state := .retiring .hard .actuating, watchTimer := none, abortPending := none
          ending := some ⟨.monitorTimeout, .monitorTimeout, s.nodeId, c.hopIndex, none, none⟩
          journal := [], attenuation := .block } ∧
        (∀ j, j ≠ i → t.context j = s.context j) ∧
        t.point p = { s.point p with settle := 0, sweepTimer := none } ∧ (∀ q, q ≠ p → t.point q = s.point q) ∧
        (∃ tag, TagGiven s tag ∧ t.outstanding = put s.outstanding p (some ⟨tag, .block, s.timing.actuatorWait⟩) ∧
          t.toSend = s.toSend ++ [⟨tag, p, c.run, .block⟩] ∧ t.nextTag = tag + 1) ∧
        t.links = (((s.offerTo c.sides.upstream c.lightpathId (.abort .monitorTimeout s.nodeId)).offerTo
          c.sides.downstream c.lightpathId (.abort .monitorTimeout s.nodeId))).links ∧
        t.maps = s.maps ∧ t.endedList = s.endedList))

/-! ## Shared mechanisms -/

/-- An admission attempt admits the members of the line in order while each fits, and stops at the first that does not (R56): the admitted
ones leave the head of the line and join the tail of the step queue, each charged, RAMPING and QUEUED, and each is notified (R32); the
others wait in order, and nothing else changes before the lock grant that follows. -/
def Obligations.AdmissionIsFirstInFirstOut : Prop :=
  ∀ (s : State) (p : PointIx), (s.point p).line.Nodup →
    (∀ i ∈ (s.point p).line, ∃ c, s.context i = some c ∧ c.state = .waitBudget) →
    ∃ (u : State) (admitted waiting : List CtxIx), s.attempt p = u.grant p ∧
      (s.point p).line = admitted ++ waiting ∧
      u.point p = { s.point p with
        line := waiting, queue := (s.point p).queue ++ admitted, load := (u.point p).load } ∧
      (∀ q, q ≠ p → u.point q = s.point q) ∧
      (∀ (x : Station) (j : CtxIx), (u.changed[x])[j] =
        if j ∈ admitted ∧ (x = 0 ∨ (s.context j).any (fun c => x == c.owner) = true) then true else (s.changed[x])[j]) ∧
      { u with contexts := s.contexts, points := s.points, changed := s.changed } = s ∧
      (∀ i ∈ admitted, ∀ c, s.context i = some c → u.context i = some { c with
        state := .ramping .queued 0, watchTimer := none, step := c.baseStep
        charge := some (forward (min 250 (c.target + c.window))) }) ∧
      (∀ i, i ∉ admitted → u.context i = s.context i) ∧
      (u.point p).load = (s.point p).load + (admitted.map fun i =>
        ((s.context i).map fun c => forward (min 250 (c.target + c.window))).getD 0).sum ∧
      (admitted ≠ [] → (u.point p).load ≤ forward (s.point p).limit) ∧
      (∀ i c, waiting.head? = some i → s.context i = some c →
        forward (s.point p).limit < (u.point p).load + forward (min 250 (c.target + c.window)))

/-- A lock grant (R60): a taken lock, or a free one that nothing waits for, is left as it is; a PENDING service request becomes ACTIVE with
its BLOCK first (R92); else the head of the step queue becomes the holder. One that ramps takes its open step with a ROUTE SET, a forward
step with an ATTEN SET, a settle with another grant behind it, or a fault (R48, R61, R63, R70, R72), a step pushed on the journal, which
merges its two oldest records at 16 (R62); one that retires begins its gradual or hard turn (R81, R85). -/
def Obligations.LockGrantBeginsTheTurn : Prop :=
  (∀ (j : List JournalRecord) (r : JournalRecord), (j.length < 16 → pushJournal j r = j ++ [r]) ∧
    ∀ a b l, j = a :: b :: l → 16 ≤ j.length → pushJournal j r = ⟨a.before, b.after⟩ :: (l ++ [r])) ∧
  (∀ (s : State) (p : PointIx),
    ((s.point p).holder ≠ none ∨ (∃ r, (s.point p).service = .active r) → s.grant p = s) ∧
    ((s.point p).holder = none → (s.point p).service = .none → (s.point p).queue = [] → s.grant p = s) ∧
    (∀ r, (s.point p).holder = none → (s.point p).service = .pending r →
      s.grant p = (s.modPoint p fun q => { q with service := .active r }).offerSetting p r .block)) ∧
  ∀ (s u : State) (p : PointIx) (i : CtxIx) (rest : List CtxIx) (c : Context),
    (s.point p).holder = none → (s.point p).service = .none → (s.point p).queue = i :: rest → s.context i = some c →
    u = (s.modPoint p fun q => { q with queue := rest, holder := some i }) →
    (∀ m x, c.state = .retiring m x → s.grant p = u.turnBegun p i c m) ∧
    (∀ x b, c.state = .ramping x b →
      (c.attenuation = .block → s.grant p = (u.setContext i (some { c with
        journal := pushJournal c.journal ⟨.block, .tenths 250⟩, attenuation := .tenths 250
        state := .ramping .actuating b })).offerSetting p c.run (.routeSet (match c.sides with
          | .head add _ => .addPort add
          | .transit d _ => .ingress d
          | .tail _ drop => .dropPort drop) 250)) ∧
      ∀ a m, c.attenuation = .tenths a → c.lastMeasured = some m →
        ((c.target - m.power).natAbs ≤ c.window → ∃ t, s.grant p = t.grant p ∧ Settles u t p i c m) ∧
        (c.target - m.power > c.window →
          (a = 0 → s.grant p = u.faulted p i c .reachShort) ∧
          ∀ step, c.step = some step → a ≠ 0 → ∀ a', a' = a - min step (c.target - m.power).toNat →
            s.grant p = (u.setContext i (some { c with
              journal := pushJournal c.journal ⟨.tenths a, .tenths a'⟩, attenuation := .tenths a'
              state := .ramping .actuating b })).offerSetting p c.run (.attenSet a')) ∧
        (c.target - m.power < -c.window →
          (a = 250 → s.grant p = u.faulted p i c .overReach) ∧
          ∀ step, c.step = some step → a ≠ 250 → ∀ a', a' = min 250 (a + min step (m.power - c.target).toNat) →
            s.grant p = (u.setContext i (some { c with
              journal := pushJournal c.journal ⟨.tenths a, .tenths a'⟩, attenuation := .tenths a'
              state := .ramping .actuating b })).offerSetting p c.run (.attenSet a')))

/-- A frame is composed of its kind, its declared length, its sender, its lightpath ID, the fields of its kind and the check over all of
them (R181): the 16-bit cyclic check begun at all ones, each byte entering most significant bit first, and sent as its complement. Every
frame that the part composes with fields in their ranges reads back as itself at another node (R95, R97, R181), and its bytes complete with
status OK (R129). A PROBE reads with any window byte and any step byte: a value below 1 is taken as 1, a window above 20 as 20 and a step
above 30 as 30 (R97). A number of two or four bytes is sent most significant byte first, and a power as a 16-bit two's-complement count of
tenths (R179). -/
def Obligations.ComposedFrameReadsBack : Prop :=
  (∀ (f : Frame) (kind : Byte) (fields text : List Byte),
    (kind, fields) = (match f.body with
      | .probe hop first width window step len route =>
        ((1 : Byte), [byte hop] ++ nat16 first ++ [byte width, byte window, byte step, byte len] ++ route)
      | .clear hop => (2, [byte hop])
      | .refuse cause node hop slot => (3, [cause.code] ++ bytes16 node ++ [byte hop] ++ (slot.map nat16).getD [0xFF, 0xFF])
      | .light => (4, [])
      | .lit => (5, [])
      | .abort origin node => (6, [origin.code] ++ bytes16 node)
      | .teardown => (7, [])) →
    text = [kind, byte (10 + fields.length)] ++ bytes16 f.sender ++ bytes32 f.lightpathId ++ fields →
    f.encode = text ++ bytes16 (frameCheck text)) ∧
  (∀ (v : Word16) (w : Word32), bytes16 v = [byte (v.toNat / 256), byte v.toNat] ∧
    bytes32 w = [byte (w.toNat / 16777216), byte (w.toNat / 65536), byte (w.toNat / 256), byte w.toNat]) ∧
  (∀ n : Nat, (byte n).toNat = n % 256 ∧ nat16 n = [byte (n / 256), byte n] ∧
    nat32 n = [byte (n / 16777216), byte (n / 65536), byte (n / 256), byte n]) ∧
  (∀ d : Int, -32768 ≤ d → d < 32768 → int16 d = nat16 (if 0 ≤ d then d else 65536 + d).toNat) ∧
  (∀ (own n : Word16) (id : Word32) (k f w len : Nat) (windowByte stepByte hi lo : Byte) (route : List Byte),
    n ≠ 0 → n ≠ own → 1 ≤ k → k < len → 2 ≤ len → len ≤ 32 → 2 ≤ w → w ≤ 16 → f ≤ 383 → f + w ≤ 384 →
    route.length = len → (∀ x ∈ route.dropLast, x.toNat ≤ 7) → (route.getLastD 0).toNat ≤ 15 →
    parseFrame own ([1, byte (17 + len)] ++ bytes16 n ++ bytes32 id ++
        ([byte k] ++ nat16 f ++ [byte w, windowByte, stepByte, byte len] ++ route) ++ [hi, lo]) =
      some ⟨n, id, .probe k f w (max 1 (min 20 windowByte.toNat)) (max 1 (min 30 stepByte.toNat)) len route⟩) ∧
  frameCheck [] = 0 ∧
  (∀ (l : List Byte) (b : Byte), ~~~frameCheck (l ++ [b]) =
    Nat.iterate (fun r : Word16 => if r.msb then (r <<< 1) ^^^ 0x1021#16 else r <<< 1) 8 (~~~frameCheck l ^^^ (b.setWidth 16 <<< 8))) ∧
  ∀ (own : Word16) (f : Frame), f.sender ≠ 0 → f.sender ≠ own →
    (match f.body with
      | .probe hop first width window step len route =>
        1 ≤ hop ∧ hop < len ∧ 2 ≤ len ∧ len ≤ 32 ∧ 2 ≤ width ∧ width ≤ 16 ∧ first ≤ 383 ∧ first + width ≤ 384 ∧
          1 ≤ window ∧ window ≤ 20 ∧ 1 ≤ step ∧ step ≤ 30 ∧ route.length = len ∧
          (∀ x ∈ route.dropLast, x.toNat ≤ 7) ∧ (route.getLastD 0).toNat ≤ 15
      | .clear hop => 1 ≤ hop ∧ hop ≤ 31
      | .refuse cause node hop slot =>
        cause ∈ [Cause.nodeClosed, .duplicateId, .noContext, .routeInvalid, .slotBusy] ∧ node ≠ 0 ∧ 1 ≤ hop ∧ hop ≤ 31 ∧
          (cause = .slotBusy ↔ slot ≠ none) ∧ ∀ k ∈ slot, k ≤ 383
      | .abort origin node =>
        origin ∈ [Cause.abortedLocal, .timeout, .guardFault, .reachShort, .overReach, .actuatorReject, .actuatorTimeout,
          .monitorTimeout] ∧ node ≠ 0
      | .light => True
      | .lit => True
      | .teardown => True) →
    parseFrame own f.encode = some f ∧ receiveStatus f.encode = .ok ∧ frameBytes f.encode = f.encode

/-- The forward conversion of a power takes the mantissa of its unit and its tenth, to the nearest whole number, to its decade, and is
strictly increasing (R41). The reverse conversion gives the smallest power whose forward conversion is at least the sum, with a floor mark
below 1000 LU and a saturated mark above the largest linear value; the exact linear value of a power converts back to it (R42). -/
def Obligations.ConversionsFollowTheTables : Prop :=
  (∀ decade unit tenth m u f : Nat, decade ≤ 6 → 100 * decade + 10 * unit + tenth ≤ 650 →
    ([1000, 1259, 1585, 1995, 2512, 3162, 3981, 5012, 6310, 7943] : List Nat)[unit]? = some u →
    ([1000, 1023, 1047, 1072, 1096, 1122, 1148, 1175, 1202, 1230] : List Nat)[tenth]? = some f →
    1000 * m ≤ u * f + 500 → u * f + 500 < 1000 * (m + 1) →
    forward ((100 * decade + 10 * unit + tenth : Nat) - 400 : Int) = m * 10 ^ decade) ∧
  (∀ c d : Int, -400 ≤ c → c < d → d ≤ 250 → forward c < forward d) ∧
  (∀ sum, sum < 1000 → reverse sum = ⟨-400, true, false⟩) ∧
  (∀ sum, 3162000000 < sum → reverse sum = ⟨250, false, true⟩) ∧
  (∀ sum, 1000 ≤ sum → sum ≤ 3162000000 → (reverse sum).floor = false ∧ (reverse sum).saturated = false ∧
    -400 ≤ (reverse sum).power ∧ (reverse sum).power ≤ 250 ∧ sum ≤ forward (reverse sum).power ∧
    ∀ d : Int, -400 ≤ d → d < (reverse sum).power → forward d < sum) ∧
  (∀ d : Int, -400 ≤ d → d ≤ 250 → reverse (forward d) = ⟨d, false, false⟩)

/-! ## What every step keeps -/

/-- Every step keeps the link units as R124 says, with every count saturated at 65535; the outstanding tags distinct (R141); the
configuration within its ranges (R35, R52, R148, R164); and the intakes and the transaction in progress in agreement (R150, R151). -/
def Obligations.StepKeepsLinksTagsConfigurationAndBus : Prop :=
  (∀ s t : State, LinksWellFormed s → step s = .next t → LinksWellFormed t) ∧
  (∀ s t : State, TagsDistinct s → step s = .next t → TagsDistinct t) ∧
  (∀ s t : State, ConfigurationLegal s → step s = .next t → ConfigurationLegal t) ∧
  (∀ s t : State, BusConsistent s → step s = .next t → BusConsistent t)

/-- Every step keeps every record as R20, R21 and R34 say: the journal a chain of at most 16 records from BLOCK to the attenuation, the step
size and backoff count in range, and charge, end cause and watch timer present exactly in the states that have them. -/
def Obligations.StepKeepsRecordsWellFormed : Prop :=
  ∀ s t : State, RecordsWellFormed s → step s = .next t → RecordsWellFormed t

/-- Every step keeps the ended list the list of the ENDED records, none twice, and the lightpath IDs of live contexts distinct (R25, R30);
and it keeps every changed set within the non-FREE contexts its station owns, station 0's within all (R32). -/
def Obligations.StepKeepsTheTableConsistent : Prop :=
  (∀ s t : State, TableConsistent s → step s = .next t → TableConsistent t) ∧
  (∀ s t : State, ChangedSetsOwned s → step s = .next t → ChangedSetsOwned t)

/-- Every step keeps the maps in agreement with the contexts (R3, R11), in a state whose table is consistent. -/
def Obligations.StepKeepsMapsInAgreement : Prop :=
  ∀ s t : State, TableConsistent s → MapsAgree s → step s = .next t → MapsAgree t

/-- Every step keeps each point's line, queue and holder in agreement with the contexts' states, and each turn with its setting and its
settle count (R52, R55, R59, R141), in a state whose table and records are as their rules say. That the settle count is 0 once an abort, a
fault or an expiry has begun a retirement turn is the model's reading (log entry 11). -/
def Obligations.StepKeepsPointsConsistent : Prop :=
  ∀ s t : State, TableConsistent s → RecordsWellFormed s → PointsConsistent s → step s = .next t → PointsConsistent t

/-- Every step keeps each point's load equal to the sum of the charges there and within its limit (R53), in a state whose table, records and
points are as their rules say. -/
def Obligations.StepKeepsTheLoad : Prop :=
  ∀ s t : State, TableConsistent s → RecordsWellFormed s → PointsConsistent s → LoadAgrees s → step s = .next t → LoadAgrees t

/-- State.reset is a machine after reset, with the strap inputs at 1 and every carrier absent (the model's choice, log entries 1 and 2),
nothing sent and nothing waiting, and what every step keeps holds of it. A RESET command keeps what was sent and what waits outside the part
(log entry 13). -/
def Obligations.ResetStateIsConsistent : Prop :=
  AfterReset 1 0 State.reset ∧ State.reset.outputs = [] ∧ State.reset.pending = [] ∧
    LinksWellFormed State.reset ∧ TagsDistinct State.reset ∧ ConfigurationLegal State.reset ∧ BusConsistent State.reset ∧
    RecordsWellFormed State.reset ∧ TableConsistent State.reset ∧ ChangedSetsOwned State.reset ∧ MapsAgree State.reset ∧
    PointsConsistent State.reset ∧ LoadAgrees State.reset ∧
    ∀ (strap : BitVec 3) (carriers : BitVec 8) (s : State),
      ∃ t, exec (.reset strap carriers) s = .next t ∧ t.outputs = s.outputs ∧ t.pending = s.pending
end

