-- ==== Sys2Proof/Laws/State.lean ====
section
/-! SUPPORT. What each named update of the state leaves as it was: one lemma a field, true by definition. -/

namespace Sys2Proof.Machine

namespace State

variable (s : State)

/-! ### modPoint -/

@[simp] theorem modPoint_maps (p : PointIx) (f : Point → Point) : (s.modPoint p f).maps = s.maps := rfl
@[simp] theorem modPoint_contexts (p : PointIx) (f : Point → Point) : (s.modPoint p f).contexts = s.contexts := rfl
@[simp] theorem modPoint_endedList (p : PointIx) (f : Point → Point) : (s.modPoint p f).endedList = s.endedList := rfl
@[simp] theorem modPoint_links (p : PointIx) (f : Point → Point) : (s.modPoint p f).links = s.links := rfl
@[simp] theorem modPoint_sweepDiscards (p : PointIx) (f : Point → Point) : (s.modPoint p f).sweepDiscards = s.sweepDiscards := rfl
@[simp] theorem modPoint_outstanding (p : PointIx) (f : Point → Point) : (s.modPoint p f).outstanding = s.outstanding := rfl
@[simp] theorem modPoint_nextTag (p : PointIx) (f : Point → Point) : (s.modPoint p f).nextTag = s.nextTag := rfl
@[simp] theorem modPoint_unmatchedAcks (p : PointIx) (f : Point → Point) : (s.modPoint p f).unmatchedAcks = s.unmatchedAcks := rfl
@[simp] theorem modPoint_toSend (p : PointIx) (f : Point → Point) : (s.modPoint p f).toSend = s.toSend := rfl
@[simp] theorem modPoint_sending (p : PointIx) (f : Point → Point) : (s.modPoint p f).sending = s.sending := rfl
@[simp] theorem modPoint_strap (p : PointIx) (f : Point → Point) : (s.modPoint p f).strap = s.strap := rfl
@[simp] theorem modPoint_bus (p : PointIx) (f : Point → Point) : (s.modPoint p f).bus = s.bus := rfl
@[simp] theorem modPoint_intakes (p : PointIx) (f : Point → Point) : (s.modPoint p f).intakes = s.intakes := rfl
@[simp] theorem modPoint_holders (p : PointIx) (f : Point → Point) : (s.modPoint p f).holders = s.holders := rfl
@[simp] theorem modPoint_masks (p : PointIx) (f : Point → Point) : (s.modPoint p f).masks = s.masks := rfl
@[simp] theorem modPoint_changed (p : PointIx) (f : Point → Point) : (s.modPoint p f).changed = s.changed := rfl
@[simp] theorem modPoint_lockout (p : PointIx) (f : Point → Point) : (s.modPoint p f).lockout = s.lockout := rfl
@[simp] theorem modPoint_nodeId (p : PointIx) (f : Point → Point) : (s.modPoint p f).nodeId = s.nodeId := rfl
@[simp] theorem modPoint_nodeOpen (p : PointIx) (f : Point → Point) : (s.modPoint p f).nodeOpen = s.nodeOpen := rfl
@[simp] theorem modPoint_timing (p : PointIx) (f : Point → Point) : (s.modPoint p f).timing = s.timing := rfl
@[simp] theorem modPoint_alerts (p : PointIx) (f : Point → Point) : (s.modPoint p f).alerts = s.alerts := rfl
@[simp] theorem modPoint_lastServed (p : PointIx) (f : Point → Point) : (s.modPoint p f).lastServed = s.lastServed := rfl
@[simp] theorem modPoint_outputs (p : PointIx) (f : Point → Point) : (s.modPoint p f).outputs = s.outputs := rfl
@[simp] theorem modPoint_pending (p : PointIx) (f : Point → Point) : (s.modPoint p f).pending = s.pending := rfl

/-! ### modLink -/

@[simp] theorem modLink_maps (d : Degree) (f : Link → Link) : (s.modLink d f).maps = s.maps := rfl
@[simp] theorem modLink_contexts (d : Degree) (f : Link → Link) : (s.modLink d f).contexts = s.contexts := rfl
@[simp] theorem modLink_endedList (d : Degree) (f : Link → Link) : (s.modLink d f).endedList = s.endedList := rfl
@[simp] theorem modLink_points (d : Degree) (f : Link → Link) : (s.modLink d f).points = s.points := rfl
@[simp] theorem modLink_sweepDiscards (d : Degree) (f : Link → Link) : (s.modLink d f).sweepDiscards = s.sweepDiscards := rfl
@[simp] theorem modLink_outstanding (d : Degree) (f : Link → Link) : (s.modLink d f).outstanding = s.outstanding := rfl
@[simp] theorem modLink_nextTag (d : Degree) (f : Link → Link) : (s.modLink d f).nextTag = s.nextTag := rfl
@[simp] theorem modLink_unmatchedAcks (d : Degree) (f : Link → Link) : (s.modLink d f).unmatchedAcks = s.unmatchedAcks := rfl
@[simp] theorem modLink_toSend (d : Degree) (f : Link → Link) : (s.modLink d f).toSend = s.toSend := rfl
@[simp] theorem modLink_sending (d : Degree) (f : Link → Link) : (s.modLink d f).sending = s.sending := rfl
@[simp] theorem modLink_strap (d : Degree) (f : Link → Link) : (s.modLink d f).strap = s.strap := rfl
@[simp] theorem modLink_bus (d : Degree) (f : Link → Link) : (s.modLink d f).bus = s.bus := rfl
@[simp] theorem modLink_intakes (d : Degree) (f : Link → Link) : (s.modLink d f).intakes = s.intakes := rfl
@[simp] theorem modLink_holders (d : Degree) (f : Link → Link) : (s.modLink d f).holders = s.holders := rfl
@[simp] theorem modLink_masks (d : Degree) (f : Link → Link) : (s.modLink d f).masks = s.masks := rfl
@[simp] theorem modLink_changed (d : Degree) (f : Link → Link) : (s.modLink d f).changed = s.changed := rfl
@[simp] theorem modLink_lockout (d : Degree) (f : Link → Link) : (s.modLink d f).lockout = s.lockout := rfl
@[simp] theorem modLink_nodeId (d : Degree) (f : Link → Link) : (s.modLink d f).nodeId = s.nodeId := rfl
@[simp] theorem modLink_nodeOpen (d : Degree) (f : Link → Link) : (s.modLink d f).nodeOpen = s.nodeOpen := rfl
@[simp] theorem modLink_timing (d : Degree) (f : Link → Link) : (s.modLink d f).timing = s.timing := rfl
@[simp] theorem modLink_alerts (d : Degree) (f : Link → Link) : (s.modLink d f).alerts = s.alerts := rfl
@[simp] theorem modLink_lastServed (d : Degree) (f : Link → Link) : (s.modLink d f).lastServed = s.lastServed := rfl
@[simp] theorem modLink_outputs (d : Degree) (f : Link → Link) : (s.modLink d f).outputs = s.outputs := rfl
@[simp] theorem modLink_pending (d : Degree) (f : Link → Link) : (s.modLink d f).pending = s.pending := rfl

/-! ### setContext -/

@[simp] theorem setContext_maps (i : CtxIx) (c : Option Context) : (s.setContext i c).maps = s.maps := rfl
@[simp] theorem setContext_endedList (i : CtxIx) (c : Option Context) : (s.setContext i c).endedList = s.endedList := rfl
@[simp] theorem setContext_points (i : CtxIx) (c : Option Context) : (s.setContext i c).points = s.points := rfl
@[simp] theorem setContext_links (i : CtxIx) (c : Option Context) : (s.setContext i c).links = s.links := rfl
@[simp] theorem setContext_sweepDiscards (i : CtxIx) (c : Option Context) : (s.setContext i c).sweepDiscards = s.sweepDiscards := rfl
@[simp] theorem setContext_outstanding (i : CtxIx) (c : Option Context) : (s.setContext i c).outstanding = s.outstanding := rfl
@[simp] theorem setContext_nextTag (i : CtxIx) (c : Option Context) : (s.setContext i c).nextTag = s.nextTag := rfl
@[simp] theorem setContext_unmatchedAcks (i : CtxIx) (c : Option Context) : (s.setContext i c).unmatchedAcks = s.unmatchedAcks := rfl
@[simp] theorem setContext_toSend (i : CtxIx) (c : Option Context) : (s.setContext i c).toSend = s.toSend := rfl
@[simp] theorem setContext_sending (i : CtxIx) (c : Option Context) : (s.setContext i c).sending = s.sending := rfl
@[simp] theorem setContext_strap (i : CtxIx) (c : Option Context) : (s.setContext i c).strap = s.strap := rfl
@[simp] theorem setContext_bus (i : CtxIx) (c : Option Context) : (s.setContext i c).bus = s.bus := rfl
@[simp] theorem setContext_intakes (i : CtxIx) (c : Option Context) : (s.setContext i c).intakes = s.intakes := rfl
@[simp] theorem setContext_holders (i : CtxIx) (c : Option Context) : (s.setContext i c).holders = s.holders := rfl
@[simp] theorem setContext_masks (i : CtxIx) (c : Option Context) : (s.setContext i c).masks = s.masks := rfl
@[simp] theorem setContext_changed (i : CtxIx) (c : Option Context) : (s.setContext i c).changed = s.changed := rfl
@[simp] theorem setContext_lockout (i : CtxIx) (c : Option Context) : (s.setContext i c).lockout = s.lockout := rfl
@[simp] theorem setContext_nodeId (i : CtxIx) (c : Option Context) : (s.setContext i c).nodeId = s.nodeId := rfl
@[simp] theorem setContext_nodeOpen (i : CtxIx) (c : Option Context) : (s.setContext i c).nodeOpen = s.nodeOpen := rfl
@[simp] theorem setContext_timing (i : CtxIx) (c : Option Context) : (s.setContext i c).timing = s.timing := rfl
@[simp] theorem setContext_alerts (i : CtxIx) (c : Option Context) : (s.setContext i c).alerts = s.alerts := rfl
@[simp] theorem setContext_lastServed (i : CtxIx) (c : Option Context) : (s.setContext i c).lastServed = s.lastServed := rfl
@[simp] theorem setContext_outputs (i : CtxIx) (c : Option Context) : (s.setContext i c).outputs = s.outputs := rfl
@[simp] theorem setContext_pending (i : CtxIx) (c : Option Context) : (s.setContext i c).pending = s.pending := rfl

/-! ### mapContexts -/

@[simp] theorem mapContexts_maps (f : Context → Context) : (s.mapContexts f).maps = s.maps := rfl
@[simp] theorem mapContexts_endedList (f : Context → Context) : (s.mapContexts f).endedList = s.endedList := rfl
@[simp] theorem mapContexts_points (f : Context → Context) : (s.mapContexts f).points = s.points := rfl
@[simp] theorem mapContexts_links (f : Context → Context) : (s.mapContexts f).links = s.links := rfl
@[simp] theorem mapContexts_sweepDiscards (f : Context → Context) : (s.mapContexts f).sweepDiscards = s.sweepDiscards := rfl
@[simp] theorem mapContexts_outstanding (f : Context → Context) : (s.mapContexts f).outstanding = s.outstanding := rfl
@[simp] theorem mapContexts_nextTag (f : Context → Context) : (s.mapContexts f).nextTag = s.nextTag := rfl
@[simp] theorem mapContexts_unmatchedAcks (f : Context → Context) : (s.mapContexts f).unmatchedAcks = s.unmatchedAcks := rfl
@[simp] theorem mapContexts_toSend (f : Context → Context) : (s.mapContexts f).toSend = s.toSend := rfl
@[simp] theorem mapContexts_sending (f : Context → Context) : (s.mapContexts f).sending = s.sending := rfl
@[simp] theorem mapContexts_strap (f : Context → Context) : (s.mapContexts f).strap = s.strap := rfl
@[simp] theorem mapContexts_bus (f : Context → Context) : (s.mapContexts f).bus = s.bus := rfl
@[simp] theorem mapContexts_intakes (f : Context → Context) : (s.mapContexts f).intakes = s.intakes := rfl
@[simp] theorem mapContexts_holders (f : Context → Context) : (s.mapContexts f).holders = s.holders := rfl
@[simp] theorem mapContexts_masks (f : Context → Context) : (s.mapContexts f).masks = s.masks := rfl
@[simp] theorem mapContexts_changed (f : Context → Context) : (s.mapContexts f).changed = s.changed := rfl
@[simp] theorem mapContexts_lockout (f : Context → Context) : (s.mapContexts f).lockout = s.lockout := rfl
@[simp] theorem mapContexts_nodeId (f : Context → Context) : (s.mapContexts f).nodeId = s.nodeId := rfl
@[simp] theorem mapContexts_nodeOpen (f : Context → Context) : (s.mapContexts f).nodeOpen = s.nodeOpen := rfl
@[simp] theorem mapContexts_timing (f : Context → Context) : (s.mapContexts f).timing = s.timing := rfl
@[simp] theorem mapContexts_alerts (f : Context → Context) : (s.mapContexts f).alerts = s.alerts := rfl
@[simp] theorem mapContexts_lastServed (f : Context → Context) : (s.mapContexts f).lastServed = s.lastServed := rfl
@[simp] theorem mapContexts_outputs (f : Context → Context) : (s.mapContexts f).outputs = s.outputs := rfl
@[simp] theorem mapContexts_pending (f : Context → Context) : (s.mapContexts f).pending = s.pending := rfl

/-! ### changeRun -/

@[simp] theorem changeRun_contexts (f : Slot → Slot) (r : Run) (m : MapIx) : (s.changeRun f r m).contexts = s.contexts := rfl
@[simp] theorem changeRun_endedList (f : Slot → Slot) (r : Run) (m : MapIx) : (s.changeRun f r m).endedList = s.endedList := rfl
@[simp] theorem changeRun_points (f : Slot → Slot) (r : Run) (m : MapIx) : (s.changeRun f r m).points = s.points := rfl
@[simp] theorem changeRun_links (f : Slot → Slot) (r : Run) (m : MapIx) : (s.changeRun f r m).links = s.links := rfl
@[simp] theorem changeRun_sweepDiscards (f : Slot → Slot) (r : Run) (m : MapIx) : (s.changeRun f r m).sweepDiscards = s.sweepDiscards := rfl
@[simp] theorem changeRun_outstanding (f : Slot → Slot) (r : Run) (m : MapIx) : (s.changeRun f r m).outstanding = s.outstanding := rfl
@[simp] theorem changeRun_nextTag (f : Slot → Slot) (r : Run) (m : MapIx) : (s.changeRun f r m).nextTag = s.nextTag := rfl
@[simp] theorem changeRun_unmatchedAcks (f : Slot → Slot) (r : Run) (m : MapIx) : (s.changeRun f r m).unmatchedAcks = s.unmatchedAcks := rfl
@[simp] theorem changeRun_toSend (f : Slot → Slot) (r : Run) (m : MapIx) : (s.changeRun f r m).toSend = s.toSend := rfl
@[simp] theorem changeRun_sending (f : Slot → Slot) (r : Run) (m : MapIx) : (s.changeRun f r m).sending = s.sending := rfl
@[simp] theorem changeRun_strap (f : Slot → Slot) (r : Run) (m : MapIx) : (s.changeRun f r m).strap = s.strap := rfl
@[simp] theorem changeRun_bus (f : Slot → Slot) (r : Run) (m : MapIx) : (s.changeRun f r m).bus = s.bus := rfl
@[simp] theorem changeRun_intakes (f : Slot → Slot) (r : Run) (m : MapIx) : (s.changeRun f r m).intakes = s.intakes := rfl
@[simp] theorem changeRun_holders (f : Slot → Slot) (r : Run) (m : MapIx) : (s.changeRun f r m).holders = s.holders := rfl
@[simp] theorem changeRun_masks (f : Slot → Slot) (r : Run) (m : MapIx) : (s.changeRun f r m).masks = s.masks := rfl
@[simp] theorem changeRun_changed (f : Slot → Slot) (r : Run) (m : MapIx) : (s.changeRun f r m).changed = s.changed := rfl
@[simp] theorem changeRun_lockout (f : Slot → Slot) (r : Run) (m : MapIx) : (s.changeRun f r m).lockout = s.lockout := rfl
@[simp] theorem changeRun_nodeId (f : Slot → Slot) (r : Run) (m : MapIx) : (s.changeRun f r m).nodeId = s.nodeId := rfl
@[simp] theorem changeRun_nodeOpen (f : Slot → Slot) (r : Run) (m : MapIx) : (s.changeRun f r m).nodeOpen = s.nodeOpen := rfl
@[simp] theorem changeRun_timing (f : Slot → Slot) (r : Run) (m : MapIx) : (s.changeRun f r m).timing = s.timing := rfl
@[simp] theorem changeRun_alerts (f : Slot → Slot) (r : Run) (m : MapIx) : (s.changeRun f r m).alerts = s.alerts := rfl
@[simp] theorem changeRun_lastServed (f : Slot → Slot) (r : Run) (m : MapIx) : (s.changeRun f r m).lastServed = s.lastServed := rfl
@[simp] theorem changeRun_outputs (f : Slot → Slot) (r : Run) (m : MapIx) : (s.changeRun f r m).outputs = s.outputs := rfl
@[simp] theorem changeRun_pending (f : Slot → Slot) (r : Run) (m : MapIx) : (s.changeRun f r m).pending = s.pending := rfl

/-! ### notify -/

@[simp] theorem notify_maps (i : CtxIx) (o : Station) : (s.notify i o).maps = s.maps := rfl
@[simp] theorem notify_contexts (i : CtxIx) (o : Station) : (s.notify i o).contexts = s.contexts := rfl
@[simp] theorem notify_endedList (i : CtxIx) (o : Station) : (s.notify i o).endedList = s.endedList := rfl
@[simp] theorem notify_points (i : CtxIx) (o : Station) : (s.notify i o).points = s.points := rfl
@[simp] theorem notify_links (i : CtxIx) (o : Station) : (s.notify i o).links = s.links := rfl
@[simp] theorem notify_sweepDiscards (i : CtxIx) (o : Station) : (s.notify i o).sweepDiscards = s.sweepDiscards := rfl
@[simp] theorem notify_outstanding (i : CtxIx) (o : Station) : (s.notify i o).outstanding = s.outstanding := rfl
@[simp] theorem notify_nextTag (i : CtxIx) (o : Station) : (s.notify i o).nextTag = s.nextTag := rfl
@[simp] theorem notify_unmatchedAcks (i : CtxIx) (o : Station) : (s.notify i o).unmatchedAcks = s.unmatchedAcks := rfl
@[simp] theorem notify_toSend (i : CtxIx) (o : Station) : (s.notify i o).toSend = s.toSend := rfl
@[simp] theorem notify_sending (i : CtxIx) (o : Station) : (s.notify i o).sending = s.sending := rfl
@[simp] theorem notify_strap (i : CtxIx) (o : Station) : (s.notify i o).strap = s.strap := rfl
@[simp] theorem notify_bus (i : CtxIx) (o : Station) : (s.notify i o).bus = s.bus := rfl
@[simp] theorem notify_intakes (i : CtxIx) (o : Station) : (s.notify i o).intakes = s.intakes := rfl
@[simp] theorem notify_holders (i : CtxIx) (o : Station) : (s.notify i o).holders = s.holders := rfl
@[simp] theorem notify_masks (i : CtxIx) (o : Station) : (s.notify i o).masks = s.masks := rfl
@[simp] theorem notify_lockout (i : CtxIx) (o : Station) : (s.notify i o).lockout = s.lockout := rfl
@[simp] theorem notify_nodeId (i : CtxIx) (o : Station) : (s.notify i o).nodeId = s.nodeId := rfl
@[simp] theorem notify_nodeOpen (i : CtxIx) (o : Station) : (s.notify i o).nodeOpen = s.nodeOpen := rfl
@[simp] theorem notify_timing (i : CtxIx) (o : Station) : (s.notify i o).timing = s.timing := rfl
@[simp] theorem notify_alerts (i : CtxIx) (o : Station) : (s.notify i o).alerts = s.alerts := rfl
@[simp] theorem notify_lastServed (i : CtxIx) (o : Station) : (s.notify i o).lastServed = s.lastServed := rfl
@[simp] theorem notify_outputs (i : CtxIx) (o : Station) : (s.notify i o).outputs = s.outputs := rfl
@[simp] theorem notify_pending (i : CtxIx) (o : Station) : (s.notify i o).pending = s.pending := rfl

/-! ### enter -/

@[simp] theorem enter_maps (i : CtxIx) (c : Context) (st : CtxState) : (s.enter i c st).maps = s.maps := rfl
@[simp] theorem enter_endedList (i : CtxIx) (c : Context) (st : CtxState) : (s.enter i c st).endedList = s.endedList := rfl
@[simp] theorem enter_points (i : CtxIx) (c : Context) (st : CtxState) : (s.enter i c st).points = s.points := rfl
@[simp] theorem enter_links (i : CtxIx) (c : Context) (st : CtxState) : (s.enter i c st).links = s.links := rfl
@[simp] theorem enter_sweepDiscards (i : CtxIx) (c : Context) (st : CtxState) : (s.enter i c st).sweepDiscards = s.sweepDiscards := rfl
@[simp] theorem enter_outstanding (i : CtxIx) (c : Context) (st : CtxState) : (s.enter i c st).outstanding = s.outstanding := rfl
@[simp] theorem enter_nextTag (i : CtxIx) (c : Context) (st : CtxState) : (s.enter i c st).nextTag = s.nextTag := rfl
@[simp] theorem enter_unmatchedAcks (i : CtxIx) (c : Context) (st : CtxState) : (s.enter i c st).unmatchedAcks = s.unmatchedAcks := rfl
@[simp] theorem enter_toSend (i : CtxIx) (c : Context) (st : CtxState) : (s.enter i c st).toSend = s.toSend := rfl
@[simp] theorem enter_sending (i : CtxIx) (c : Context) (st : CtxState) : (s.enter i c st).sending = s.sending := rfl
@[simp] theorem enter_strap (i : CtxIx) (c : Context) (st : CtxState) : (s.enter i c st).strap = s.strap := rfl
@[simp] theorem enter_bus (i : CtxIx) (c : Context) (st : CtxState) : (s.enter i c st).bus = s.bus := rfl
@[simp] theorem enter_intakes (i : CtxIx) (c : Context) (st : CtxState) : (s.enter i c st).intakes = s.intakes := rfl
@[simp] theorem enter_holders (i : CtxIx) (c : Context) (st : CtxState) : (s.enter i c st).holders = s.holders := rfl
@[simp] theorem enter_masks (i : CtxIx) (c : Context) (st : CtxState) : (s.enter i c st).masks = s.masks := rfl
@[simp] theorem enter_lockout (i : CtxIx) (c : Context) (st : CtxState) : (s.enter i c st).lockout = s.lockout := rfl
@[simp] theorem enter_nodeId (i : CtxIx) (c : Context) (st : CtxState) : (s.enter i c st).nodeId = s.nodeId := rfl
@[simp] theorem enter_nodeOpen (i : CtxIx) (c : Context) (st : CtxState) : (s.enter i c st).nodeOpen = s.nodeOpen := rfl
@[simp] theorem enter_timing (i : CtxIx) (c : Context) (st : CtxState) : (s.enter i c st).timing = s.timing := rfl
@[simp] theorem enter_alerts (i : CtxIx) (c : Context) (st : CtxState) : (s.enter i c st).alerts = s.alerts := rfl
@[simp] theorem enter_lastServed (i : CtxIx) (c : Context) (st : CtxState) : (s.enter i c st).lastServed = s.lastServed := rfl
@[simp] theorem enter_outputs (i : CtxIx) (c : Context) (st : CtxState) : (s.enter i c st).outputs = s.outputs := rfl
@[simp] theorem enter_pending (i : CtxIx) (c : Context) (st : CtxState) : (s.enter i c st).pending = s.pending := rfl

/-! ### forget -/

@[simp] theorem forget_maps (i : CtxIx) : (s.forget i).maps = s.maps := rfl
@[simp] theorem forget_contexts (i : CtxIx) : (s.forget i).contexts = s.contexts := rfl
@[simp] theorem forget_points (i : CtxIx) : (s.forget i).points = s.points := rfl
@[simp] theorem forget_links (i : CtxIx) : (s.forget i).links = s.links := rfl
@[simp] theorem forget_sweepDiscards (i : CtxIx) : (s.forget i).sweepDiscards = s.sweepDiscards := rfl
@[simp] theorem forget_outstanding (i : CtxIx) : (s.forget i).outstanding = s.outstanding := rfl
@[simp] theorem forget_nextTag (i : CtxIx) : (s.forget i).nextTag = s.nextTag := rfl
@[simp] theorem forget_unmatchedAcks (i : CtxIx) : (s.forget i).unmatchedAcks = s.unmatchedAcks := rfl
@[simp] theorem forget_toSend (i : CtxIx) : (s.forget i).toSend = s.toSend := rfl
@[simp] theorem forget_sending (i : CtxIx) : (s.forget i).sending = s.sending := rfl
@[simp] theorem forget_strap (i : CtxIx) : (s.forget i).strap = s.strap := rfl
@[simp] theorem forget_bus (i : CtxIx) : (s.forget i).bus = s.bus := rfl
@[simp] theorem forget_intakes (i : CtxIx) : (s.forget i).intakes = s.intakes := rfl
@[simp] theorem forget_holders (i : CtxIx) : (s.forget i).holders = s.holders := rfl
@[simp] theorem forget_masks (i : CtxIx) : (s.forget i).masks = s.masks := rfl
@[simp] theorem forget_lockout (i : CtxIx) : (s.forget i).lockout = s.lockout := rfl
@[simp] theorem forget_nodeId (i : CtxIx) : (s.forget i).nodeId = s.nodeId := rfl
@[simp] theorem forget_nodeOpen (i : CtxIx) : (s.forget i).nodeOpen = s.nodeOpen := rfl
@[simp] theorem forget_timing (i : CtxIx) : (s.forget i).timing = s.timing := rfl
@[simp] theorem forget_alerts (i : CtxIx) : (s.forget i).alerts = s.alerts := rfl
@[simp] theorem forget_lastServed (i : CtxIx) : (s.forget i).lastServed = s.lastServed := rfl
@[simp] theorem forget_outputs (i : CtxIx) : (s.forget i).outputs = s.outputs := rfl
@[simp] theorem forget_pending (i : CtxIx) : (s.forget i).pending = s.pending := rfl

/-! ### endRecord -/

@[simp] theorem endRecord_maps (i : CtxIx) (c : Context) (e : Ending) : (s.endRecord i c e).maps = s.maps := rfl
@[simp] theorem endRecord_points (i : CtxIx) (c : Context) (e : Ending) : (s.endRecord i c e).points = s.points := rfl
@[simp] theorem endRecord_links (i : CtxIx) (c : Context) (e : Ending) : (s.endRecord i c e).links = s.links := rfl
@[simp] theorem endRecord_sweepDiscards (i : CtxIx) (c : Context) (e : Ending) : (s.endRecord i c e).sweepDiscards = s.sweepDiscards := rfl
@[simp] theorem endRecord_outstanding (i : CtxIx) (c : Context) (e : Ending) : (s.endRecord i c e).outstanding = s.outstanding := rfl
@[simp] theorem endRecord_nextTag (i : CtxIx) (c : Context) (e : Ending) : (s.endRecord i c e).nextTag = s.nextTag := rfl
@[simp] theorem endRecord_unmatchedAcks (i : CtxIx) (c : Context) (e : Ending) : (s.endRecord i c e).unmatchedAcks = s.unmatchedAcks := rfl
@[simp] theorem endRecord_toSend (i : CtxIx) (c : Context) (e : Ending) : (s.endRecord i c e).toSend = s.toSend := rfl
@[simp] theorem endRecord_sending (i : CtxIx) (c : Context) (e : Ending) : (s.endRecord i c e).sending = s.sending := rfl
@[simp] theorem endRecord_strap (i : CtxIx) (c : Context) (e : Ending) : (s.endRecord i c e).strap = s.strap := rfl
@[simp] theorem endRecord_bus (i : CtxIx) (c : Context) (e : Ending) : (s.endRecord i c e).bus = s.bus := rfl
@[simp] theorem endRecord_intakes (i : CtxIx) (c : Context) (e : Ending) : (s.endRecord i c e).intakes = s.intakes := rfl
@[simp] theorem endRecord_holders (i : CtxIx) (c : Context) (e : Ending) : (s.endRecord i c e).holders = s.holders := rfl
@[simp] theorem endRecord_masks (i : CtxIx) (c : Context) (e : Ending) : (s.endRecord i c e).masks = s.masks := rfl
@[simp] theorem endRecord_lockout (i : CtxIx) (c : Context) (e : Ending) : (s.endRecord i c e).lockout = s.lockout := rfl
@[simp] theorem endRecord_nodeId (i : CtxIx) (c : Context) (e : Ending) : (s.endRecord i c e).nodeId = s.nodeId := rfl
@[simp] theorem endRecord_nodeOpen (i : CtxIx) (c : Context) (e : Ending) : (s.endRecord i c e).nodeOpen = s.nodeOpen := rfl
@[simp] theorem endRecord_timing (i : CtxIx) (c : Context) (e : Ending) : (s.endRecord i c e).timing = s.timing := rfl
@[simp] theorem endRecord_alerts (i : CtxIx) (c : Context) (e : Ending) : (s.endRecord i c e).alerts = s.alerts := rfl
@[simp] theorem endRecord_lastServed (i : CtxIx) (c : Context) (e : Ending) : (s.endRecord i c e).lastServed = s.lastServed := rfl
@[simp] theorem endRecord_outputs (i : CtxIx) (c : Context) (e : Ending) : (s.endRecord i c e).outputs = s.outputs := rfl
@[simp] theorem endRecord_pending (i : CtxIx) (c : Context) (e : Ending) : (s.endRecord i c e).pending = s.pending := rfl

/-! ### create -/

@[simp] theorem create_maps (i : CtxIx) (c : Context) (st : CtxState) : (s.create i c st).maps = s.maps := rfl
@[simp] theorem create_points (i : CtxIx) (c : Context) (st : CtxState) : (s.create i c st).points = s.points := rfl
@[simp] theorem create_links (i : CtxIx) (c : Context) (st : CtxState) : (s.create i c st).links = s.links := rfl
@[simp] theorem create_sweepDiscards (i : CtxIx) (c : Context) (st : CtxState) : (s.create i c st).sweepDiscards = s.sweepDiscards := rfl
@[simp] theorem create_outstanding (i : CtxIx) (c : Context) (st : CtxState) : (s.create i c st).outstanding = s.outstanding := rfl
@[simp] theorem create_nextTag (i : CtxIx) (c : Context) (st : CtxState) : (s.create i c st).nextTag = s.nextTag := rfl
@[simp] theorem create_unmatchedAcks (i : CtxIx) (c : Context) (st : CtxState) : (s.create i c st).unmatchedAcks = s.unmatchedAcks := rfl
@[simp] theorem create_toSend (i : CtxIx) (c : Context) (st : CtxState) : (s.create i c st).toSend = s.toSend := rfl
@[simp] theorem create_sending (i : CtxIx) (c : Context) (st : CtxState) : (s.create i c st).sending = s.sending := rfl
@[simp] theorem create_strap (i : CtxIx) (c : Context) (st : CtxState) : (s.create i c st).strap = s.strap := rfl
@[simp] theorem create_bus (i : CtxIx) (c : Context) (st : CtxState) : (s.create i c st).bus = s.bus := rfl
@[simp] theorem create_intakes (i : CtxIx) (c : Context) (st : CtxState) : (s.create i c st).intakes = s.intakes := rfl
@[simp] theorem create_holders (i : CtxIx) (c : Context) (st : CtxState) : (s.create i c st).holders = s.holders := rfl
@[simp] theorem create_masks (i : CtxIx) (c : Context) (st : CtxState) : (s.create i c st).masks = s.masks := rfl
@[simp] theorem create_lockout (i : CtxIx) (c : Context) (st : CtxState) : (s.create i c st).lockout = s.lockout := rfl
@[simp] theorem create_nodeId (i : CtxIx) (c : Context) (st : CtxState) : (s.create i c st).nodeId = s.nodeId := rfl
@[simp] theorem create_nodeOpen (i : CtxIx) (c : Context) (st : CtxState) : (s.create i c st).nodeOpen = s.nodeOpen := rfl
@[simp] theorem create_timing (i : CtxIx) (c : Context) (st : CtxState) : (s.create i c st).timing = s.timing := rfl
@[simp] theorem create_alerts (i : CtxIx) (c : Context) (st : CtxState) : (s.create i c st).alerts = s.alerts := rfl
@[simp] theorem create_lastServed (i : CtxIx) (c : Context) (st : CtxState) : (s.create i c st).lastServed = s.lastServed := rfl
@[simp] theorem create_outputs (i : CtxIx) (c : Context) (st : CtxState) : (s.create i c st).outputs = s.outputs := rfl
@[simp] theorem create_pending (i : CtxIx) (c : Context) (st : CtxState) : (s.create i c st).pending = s.pending := rfl

/-! ### offer -/

@[simp] theorem offer_maps (d : Degree) (n : Word32) (b : FrameBody) : (s.offer d n b).maps = s.maps := rfl
@[simp] theorem offer_contexts (d : Degree) (n : Word32) (b : FrameBody) : (s.offer d n b).contexts = s.contexts := rfl
@[simp] theorem offer_endedList (d : Degree) (n : Word32) (b : FrameBody) : (s.offer d n b).endedList = s.endedList := rfl
@[simp] theorem offer_points (d : Degree) (n : Word32) (b : FrameBody) : (s.offer d n b).points = s.points := rfl
@[simp] theorem offer_sweepDiscards (d : Degree) (n : Word32) (b : FrameBody) : (s.offer d n b).sweepDiscards = s.sweepDiscards := rfl
@[simp] theorem offer_outstanding (d : Degree) (n : Word32) (b : FrameBody) : (s.offer d n b).outstanding = s.outstanding := rfl
@[simp] theorem offer_nextTag (d : Degree) (n : Word32) (b : FrameBody) : (s.offer d n b).nextTag = s.nextTag := rfl
@[simp] theorem offer_unmatchedAcks (d : Degree) (n : Word32) (b : FrameBody) : (s.offer d n b).unmatchedAcks = s.unmatchedAcks := rfl
@[simp] theorem offer_toSend (d : Degree) (n : Word32) (b : FrameBody) : (s.offer d n b).toSend = s.toSend := rfl
@[simp] theorem offer_sending (d : Degree) (n : Word32) (b : FrameBody) : (s.offer d n b).sending = s.sending := rfl
@[simp] theorem offer_strap (d : Degree) (n : Word32) (b : FrameBody) : (s.offer d n b).strap = s.strap := rfl
@[simp] theorem offer_bus (d : Degree) (n : Word32) (b : FrameBody) : (s.offer d n b).bus = s.bus := rfl
@[simp] theorem offer_intakes (d : Degree) (n : Word32) (b : FrameBody) : (s.offer d n b).intakes = s.intakes := rfl
@[simp] theorem offer_holders (d : Degree) (n : Word32) (b : FrameBody) : (s.offer d n b).holders = s.holders := rfl
@[simp] theorem offer_masks (d : Degree) (n : Word32) (b : FrameBody) : (s.offer d n b).masks = s.masks := rfl
@[simp] theorem offer_changed (d : Degree) (n : Word32) (b : FrameBody) : (s.offer d n b).changed = s.changed := rfl
@[simp] theorem offer_lockout (d : Degree) (n : Word32) (b : FrameBody) : (s.offer d n b).lockout = s.lockout := rfl
@[simp] theorem offer_nodeId (d : Degree) (n : Word32) (b : FrameBody) : (s.offer d n b).nodeId = s.nodeId := rfl
@[simp] theorem offer_nodeOpen (d : Degree) (n : Word32) (b : FrameBody) : (s.offer d n b).nodeOpen = s.nodeOpen := rfl
@[simp] theorem offer_timing (d : Degree) (n : Word32) (b : FrameBody) : (s.offer d n b).timing = s.timing := rfl
@[simp] theorem offer_alerts (d : Degree) (n : Word32) (b : FrameBody) : (s.offer d n b).alerts = s.alerts := rfl
@[simp] theorem offer_lastServed (d : Degree) (n : Word32) (b : FrameBody) : (s.offer d n b).lastServed = s.lastServed := rfl
@[simp] theorem offer_outputs (d : Degree) (n : Word32) (b : FrameBody) : (s.offer d n b).outputs = s.outputs := rfl
@[simp] theorem offer_pending (d : Degree) (n : Word32) (b : FrameBody) : (s.offer d n b).pending = s.pending := rfl

/-! ### offerSetting -/

@[simp] theorem offerSetting_maps (p : PointIx) (r : Run) (b : SettingBody) : (s.offerSetting p r b).maps = s.maps := rfl
@[simp] theorem offerSetting_contexts (p : PointIx) (r : Run) (b : SettingBody) : (s.offerSetting p r b).contexts = s.contexts := rfl
@[simp] theorem offerSetting_endedList (p : PointIx) (r : Run) (b : SettingBody) : (s.offerSetting p r b).endedList = s.endedList := rfl
@[simp] theorem offerSetting_points (p : PointIx) (r : Run) (b : SettingBody) : (s.offerSetting p r b).points = s.points := rfl
@[simp] theorem offerSetting_links (p : PointIx) (r : Run) (b : SettingBody) : (s.offerSetting p r b).links = s.links := rfl
@[simp] theorem offerSetting_sweepDiscards (p : PointIx) (r : Run) (b : SettingBody) : (s.offerSetting p r b).sweepDiscards = s.sweepDiscards := rfl
@[simp] theorem offerSetting_unmatchedAcks (p : PointIx) (r : Run) (b : SettingBody) : (s.offerSetting p r b).unmatchedAcks = s.unmatchedAcks := rfl
@[simp] theorem offerSetting_sending (p : PointIx) (r : Run) (b : SettingBody) : (s.offerSetting p r b).sending = s.sending := rfl
@[simp] theorem offerSetting_strap (p : PointIx) (r : Run) (b : SettingBody) : (s.offerSetting p r b).strap = s.strap := rfl
@[simp] theorem offerSetting_bus (p : PointIx) (r : Run) (b : SettingBody) : (s.offerSetting p r b).bus = s.bus := rfl
@[simp] theorem offerSetting_intakes (p : PointIx) (r : Run) (b : SettingBody) : (s.offerSetting p r b).intakes = s.intakes := rfl
@[simp] theorem offerSetting_holders (p : PointIx) (r : Run) (b : SettingBody) : (s.offerSetting p r b).holders = s.holders := rfl
@[simp] theorem offerSetting_masks (p : PointIx) (r : Run) (b : SettingBody) : (s.offerSetting p r b).masks = s.masks := rfl
@[simp] theorem offerSetting_changed (p : PointIx) (r : Run) (b : SettingBody) : (s.offerSetting p r b).changed = s.changed := rfl
@[simp] theorem offerSetting_lockout (p : PointIx) (r : Run) (b : SettingBody) : (s.offerSetting p r b).lockout = s.lockout := rfl
@[simp] theorem offerSetting_nodeId (p : PointIx) (r : Run) (b : SettingBody) : (s.offerSetting p r b).nodeId = s.nodeId := rfl
@[simp] theorem offerSetting_nodeOpen (p : PointIx) (r : Run) (b : SettingBody) : (s.offerSetting p r b).nodeOpen = s.nodeOpen := rfl
@[simp] theorem offerSetting_timing (p : PointIx) (r : Run) (b : SettingBody) : (s.offerSetting p r b).timing = s.timing := rfl
@[simp] theorem offerSetting_alerts (p : PointIx) (r : Run) (b : SettingBody) : (s.offerSetting p r b).alerts = s.alerts := rfl
@[simp] theorem offerSetting_lastServed (p : PointIx) (r : Run) (b : SettingBody) : (s.offerSetting p r b).lastServed = s.lastServed := rfl
@[simp] theorem offerSetting_outputs (p : PointIx) (r : Run) (b : SettingBody) : (s.offerSetting p r b).outputs = s.outputs := rfl
@[simp] theorem offerSetting_pending (p : PointIx) (r : Run) (b : SettingBody) : (s.offerSetting p r b).pending = s.pending := rfl

/-! ### raiseOverrun -/

@[simp] theorem raiseOverrun_maps : (s.raiseOverrun).maps = s.maps := rfl
@[simp] theorem raiseOverrun_contexts : (s.raiseOverrun).contexts = s.contexts := rfl
@[simp] theorem raiseOverrun_endedList : (s.raiseOverrun).endedList = s.endedList := rfl
@[simp] theorem raiseOverrun_points : (s.raiseOverrun).points = s.points := rfl
@[simp] theorem raiseOverrun_links : (s.raiseOverrun).links = s.links := rfl
@[simp] theorem raiseOverrun_sweepDiscards : (s.raiseOverrun).sweepDiscards = s.sweepDiscards := rfl
@[simp] theorem raiseOverrun_outstanding : (s.raiseOverrun).outstanding = s.outstanding := rfl
@[simp] theorem raiseOverrun_nextTag : (s.raiseOverrun).nextTag = s.nextTag := rfl
@[simp] theorem raiseOverrun_unmatchedAcks : (s.raiseOverrun).unmatchedAcks = s.unmatchedAcks := rfl
@[simp] theorem raiseOverrun_toSend : (s.raiseOverrun).toSend = s.toSend := rfl
@[simp] theorem raiseOverrun_sending : (s.raiseOverrun).sending = s.sending := rfl
@[simp] theorem raiseOverrun_strap : (s.raiseOverrun).strap = s.strap := rfl
@[simp] theorem raiseOverrun_bus : (s.raiseOverrun).bus = s.bus := rfl
@[simp] theorem raiseOverrun_intakes : (s.raiseOverrun).intakes = s.intakes := rfl
@[simp] theorem raiseOverrun_holders : (s.raiseOverrun).holders = s.holders := rfl
@[simp] theorem raiseOverrun_masks : (s.raiseOverrun).masks = s.masks := rfl
@[simp] theorem raiseOverrun_changed : (s.raiseOverrun).changed = s.changed := rfl
@[simp] theorem raiseOverrun_lockout : (s.raiseOverrun).lockout = s.lockout := rfl
@[simp] theorem raiseOverrun_nodeId : (s.raiseOverrun).nodeId = s.nodeId := rfl
@[simp] theorem raiseOverrun_nodeOpen : (s.raiseOverrun).nodeOpen = s.nodeOpen := rfl
@[simp] theorem raiseOverrun_timing : (s.raiseOverrun).timing = s.timing := rfl
@[simp] theorem raiseOverrun_lastServed : (s.raiseOverrun).lastServed = s.lastServed := rfl
@[simp] theorem raiseOverrun_outputs : (s.raiseOverrun).outputs = s.outputs := rfl
@[simp] theorem raiseOverrun_pending : (s.raiseOverrun).pending = s.pending := rfl

/-! ### raiseLinkDown -/

@[simp] theorem raiseLinkDown_maps : (s.raiseLinkDown).maps = s.maps := rfl
@[simp] theorem raiseLinkDown_contexts : (s.raiseLinkDown).contexts = s.contexts := rfl
@[simp] theorem raiseLinkDown_endedList : (s.raiseLinkDown).endedList = s.endedList := rfl
@[simp] theorem raiseLinkDown_points : (s.raiseLinkDown).points = s.points := rfl
@[simp] theorem raiseLinkDown_links : (s.raiseLinkDown).links = s.links := rfl
@[simp] theorem raiseLinkDown_sweepDiscards : (s.raiseLinkDown).sweepDiscards = s.sweepDiscards := rfl
@[simp] theorem raiseLinkDown_outstanding : (s.raiseLinkDown).outstanding = s.outstanding := rfl
@[simp] theorem raiseLinkDown_nextTag : (s.raiseLinkDown).nextTag = s.nextTag := rfl
@[simp] theorem raiseLinkDown_unmatchedAcks : (s.raiseLinkDown).unmatchedAcks = s.unmatchedAcks := rfl
@[simp] theorem raiseLinkDown_toSend : (s.raiseLinkDown).toSend = s.toSend := rfl
@[simp] theorem raiseLinkDown_sending : (s.raiseLinkDown).sending = s.sending := rfl
@[simp] theorem raiseLinkDown_strap : (s.raiseLinkDown).strap = s.strap := rfl
@[simp] theorem raiseLinkDown_bus : (s.raiseLinkDown).bus = s.bus := rfl
@[simp] theorem raiseLinkDown_intakes : (s.raiseLinkDown).intakes = s.intakes := rfl
@[simp] theorem raiseLinkDown_holders : (s.raiseLinkDown).holders = s.holders := rfl
@[simp] theorem raiseLinkDown_masks : (s.raiseLinkDown).masks = s.masks := rfl
@[simp] theorem raiseLinkDown_changed : (s.raiseLinkDown).changed = s.changed := rfl
@[simp] theorem raiseLinkDown_lockout : (s.raiseLinkDown).lockout = s.lockout := rfl
@[simp] theorem raiseLinkDown_nodeId : (s.raiseLinkDown).nodeId = s.nodeId := rfl
@[simp] theorem raiseLinkDown_nodeOpen : (s.raiseLinkDown).nodeOpen = s.nodeOpen := rfl
@[simp] theorem raiseLinkDown_timing : (s.raiseLinkDown).timing = s.timing := rfl
@[simp] theorem raiseLinkDown_lastServed : (s.raiseLinkDown).lastServed = s.lastServed := rfl
@[simp] theorem raiseLinkDown_outputs : (s.raiseLinkDown).outputs = s.outputs := rfl
@[simp] theorem raiseLinkDown_pending : (s.raiseLinkDown).pending = s.pending := rfl

/-! ### raiseMonitor -/

@[simp] theorem raiseMonitor_maps : (s.raiseMonitor).maps = s.maps := rfl
@[simp] theorem raiseMonitor_contexts : (s.raiseMonitor).contexts = s.contexts := rfl
@[simp] theorem raiseMonitor_endedList : (s.raiseMonitor).endedList = s.endedList := rfl
@[simp] theorem raiseMonitor_points : (s.raiseMonitor).points = s.points := rfl
@[simp] theorem raiseMonitor_links : (s.raiseMonitor).links = s.links := rfl
@[simp] theorem raiseMonitor_sweepDiscards : (s.raiseMonitor).sweepDiscards = s.sweepDiscards := rfl
@[simp] theorem raiseMonitor_outstanding : (s.raiseMonitor).outstanding = s.outstanding := rfl
@[simp] theorem raiseMonitor_nextTag : (s.raiseMonitor).nextTag = s.nextTag := rfl
@[simp] theorem raiseMonitor_unmatchedAcks : (s.raiseMonitor).unmatchedAcks = s.unmatchedAcks := rfl
@[simp] theorem raiseMonitor_toSend : (s.raiseMonitor).toSend = s.toSend := rfl
@[simp] theorem raiseMonitor_sending : (s.raiseMonitor).sending = s.sending := rfl
@[simp] theorem raiseMonitor_strap : (s.raiseMonitor).strap = s.strap := rfl
@[simp] theorem raiseMonitor_bus : (s.raiseMonitor).bus = s.bus := rfl
@[simp] theorem raiseMonitor_intakes : (s.raiseMonitor).intakes = s.intakes := rfl
@[simp] theorem raiseMonitor_holders : (s.raiseMonitor).holders = s.holders := rfl
@[simp] theorem raiseMonitor_masks : (s.raiseMonitor).masks = s.masks := rfl
@[simp] theorem raiseMonitor_changed : (s.raiseMonitor).changed = s.changed := rfl
@[simp] theorem raiseMonitor_lockout : (s.raiseMonitor).lockout = s.lockout := rfl
@[simp] theorem raiseMonitor_nodeId : (s.raiseMonitor).nodeId = s.nodeId := rfl
@[simp] theorem raiseMonitor_nodeOpen : (s.raiseMonitor).nodeOpen = s.nodeOpen := rfl
@[simp] theorem raiseMonitor_timing : (s.raiseMonitor).timing = s.timing := rfl
@[simp] theorem raiseMonitor_lastServed : (s.raiseMonitor).lastServed = s.lastServed := rfl
@[simp] theorem raiseMonitor_outputs : (s.raiseMonitor).outputs = s.outputs := rfl
@[simp] theorem raiseMonitor_pending : (s.raiseMonitor).pending = s.pending := rfl

/-! ### raiseActuator -/

@[simp] theorem raiseActuator_maps : (s.raiseActuator).maps = s.maps := rfl
@[simp] theorem raiseActuator_contexts : (s.raiseActuator).contexts = s.contexts := rfl
@[simp] theorem raiseActuator_endedList : (s.raiseActuator).endedList = s.endedList := rfl
@[simp] theorem raiseActuator_points : (s.raiseActuator).points = s.points := rfl
@[simp] theorem raiseActuator_links : (s.raiseActuator).links = s.links := rfl
@[simp] theorem raiseActuator_sweepDiscards : (s.raiseActuator).sweepDiscards = s.sweepDiscards := rfl
@[simp] theorem raiseActuator_outstanding : (s.raiseActuator).outstanding = s.outstanding := rfl
@[simp] theorem raiseActuator_nextTag : (s.raiseActuator).nextTag = s.nextTag := rfl
@[simp] theorem raiseActuator_unmatchedAcks : (s.raiseActuator).unmatchedAcks = s.unmatchedAcks := rfl
@[simp] theorem raiseActuator_toSend : (s.raiseActuator).toSend = s.toSend := rfl
@[simp] theorem raiseActuator_sending : (s.raiseActuator).sending = s.sending := rfl
@[simp] theorem raiseActuator_strap : (s.raiseActuator).strap = s.strap := rfl
@[simp] theorem raiseActuator_bus : (s.raiseActuator).bus = s.bus := rfl
@[simp] theorem raiseActuator_intakes : (s.raiseActuator).intakes = s.intakes := rfl
@[simp] theorem raiseActuator_holders : (s.raiseActuator).holders = s.holders := rfl
@[simp] theorem raiseActuator_masks : (s.raiseActuator).masks = s.masks := rfl
@[simp] theorem raiseActuator_changed : (s.raiseActuator).changed = s.changed := rfl
@[simp] theorem raiseActuator_lockout : (s.raiseActuator).lockout = s.lockout := rfl
@[simp] theorem raiseActuator_nodeId : (s.raiseActuator).nodeId = s.nodeId := rfl
@[simp] theorem raiseActuator_nodeOpen : (s.raiseActuator).nodeOpen = s.nodeOpen := rfl
@[simp] theorem raiseActuator_timing : (s.raiseActuator).timing = s.timing := rfl
@[simp] theorem raiseActuator_lastServed : (s.raiseActuator).lastServed = s.lastServed := rfl
@[simp] theorem raiseActuator_outputs : (s.raiseActuator).outputs = s.outputs := rfl
@[simp] theorem raiseActuator_pending : (s.raiseActuator).pending = s.pending := rfl

/-! ### raiseDarkUnconfirmed -/

@[simp] theorem raiseDarkUnconfirmed_maps : (s.raiseDarkUnconfirmed).maps = s.maps := rfl
@[simp] theorem raiseDarkUnconfirmed_contexts : (s.raiseDarkUnconfirmed).contexts = s.contexts := rfl
@[simp] theorem raiseDarkUnconfirmed_endedList : (s.raiseDarkUnconfirmed).endedList = s.endedList := rfl
@[simp] theorem raiseDarkUnconfirmed_points : (s.raiseDarkUnconfirmed).points = s.points := rfl
@[simp] theorem raiseDarkUnconfirmed_links : (s.raiseDarkUnconfirmed).links = s.links := rfl
@[simp] theorem raiseDarkUnconfirmed_sweepDiscards : (s.raiseDarkUnconfirmed).sweepDiscards = s.sweepDiscards := rfl
@[simp] theorem raiseDarkUnconfirmed_outstanding : (s.raiseDarkUnconfirmed).outstanding = s.outstanding := rfl
@[simp] theorem raiseDarkUnconfirmed_nextTag : (s.raiseDarkUnconfirmed).nextTag = s.nextTag := rfl
@[simp] theorem raiseDarkUnconfirmed_unmatchedAcks : (s.raiseDarkUnconfirmed).unmatchedAcks = s.unmatchedAcks := rfl
@[simp] theorem raiseDarkUnconfirmed_toSend : (s.raiseDarkUnconfirmed).toSend = s.toSend := rfl
@[simp] theorem raiseDarkUnconfirmed_sending : (s.raiseDarkUnconfirmed).sending = s.sending := rfl
@[simp] theorem raiseDarkUnconfirmed_strap : (s.raiseDarkUnconfirmed).strap = s.strap := rfl
@[simp] theorem raiseDarkUnconfirmed_bus : (s.raiseDarkUnconfirmed).bus = s.bus := rfl
@[simp] theorem raiseDarkUnconfirmed_intakes : (s.raiseDarkUnconfirmed).intakes = s.intakes := rfl
@[simp] theorem raiseDarkUnconfirmed_holders : (s.raiseDarkUnconfirmed).holders = s.holders := rfl
@[simp] theorem raiseDarkUnconfirmed_masks : (s.raiseDarkUnconfirmed).masks = s.masks := rfl
@[simp] theorem raiseDarkUnconfirmed_changed : (s.raiseDarkUnconfirmed).changed = s.changed := rfl
@[simp] theorem raiseDarkUnconfirmed_lockout : (s.raiseDarkUnconfirmed).lockout = s.lockout := rfl
@[simp] theorem raiseDarkUnconfirmed_nodeId : (s.raiseDarkUnconfirmed).nodeId = s.nodeId := rfl
@[simp] theorem raiseDarkUnconfirmed_nodeOpen : (s.raiseDarkUnconfirmed).nodeOpen = s.nodeOpen := rfl
@[simp] theorem raiseDarkUnconfirmed_timing : (s.raiseDarkUnconfirmed).timing = s.timing := rfl
@[simp] theorem raiseDarkUnconfirmed_lastServed : (s.raiseDarkUnconfirmed).lastServed = s.lastServed := rfl
@[simp] theorem raiseDarkUnconfirmed_outputs : (s.raiseDarkUnconfirmed).outputs = s.outputs := rfl
@[simp] theorem raiseDarkUnconfirmed_pending : (s.raiseDarkUnconfirmed).pending = s.pending := rfl

/-! ### releaseLock -/

@[simp] theorem releaseLock_maps (p : PointIx) : (s.releaseLock p).maps = s.maps := rfl
@[simp] theorem releaseLock_contexts (p : PointIx) : (s.releaseLock p).contexts = s.contexts := rfl
@[simp] theorem releaseLock_endedList (p : PointIx) : (s.releaseLock p).endedList = s.endedList := rfl
@[simp] theorem releaseLock_links (p : PointIx) : (s.releaseLock p).links = s.links := rfl
@[simp] theorem releaseLock_sweepDiscards (p : PointIx) : (s.releaseLock p).sweepDiscards = s.sweepDiscards := rfl
@[simp] theorem releaseLock_outstanding (p : PointIx) : (s.releaseLock p).outstanding = s.outstanding := rfl
@[simp] theorem releaseLock_nextTag (p : PointIx) : (s.releaseLock p).nextTag = s.nextTag := rfl
@[simp] theorem releaseLock_unmatchedAcks (p : PointIx) : (s.releaseLock p).unmatchedAcks = s.unmatchedAcks := rfl
@[simp] theorem releaseLock_toSend (p : PointIx) : (s.releaseLock p).toSend = s.toSend := rfl
@[simp] theorem releaseLock_sending (p : PointIx) : (s.releaseLock p).sending = s.sending := rfl
@[simp] theorem releaseLock_strap (p : PointIx) : (s.releaseLock p).strap = s.strap := rfl
@[simp] theorem releaseLock_bus (p : PointIx) : (s.releaseLock p).bus = s.bus := rfl
@[simp] theorem releaseLock_intakes (p : PointIx) : (s.releaseLock p).intakes = s.intakes := rfl
@[simp] theorem releaseLock_holders (p : PointIx) : (s.releaseLock p).holders = s.holders := rfl
@[simp] theorem releaseLock_masks (p : PointIx) : (s.releaseLock p).masks = s.masks := rfl
@[simp] theorem releaseLock_changed (p : PointIx) : (s.releaseLock p).changed = s.changed := rfl
@[simp] theorem releaseLock_lockout (p : PointIx) : (s.releaseLock p).lockout = s.lockout := rfl
@[simp] theorem releaseLock_nodeId (p : PointIx) : (s.releaseLock p).nodeId = s.nodeId := rfl
@[simp] theorem releaseLock_nodeOpen (p : PointIx) : (s.releaseLock p).nodeOpen = s.nodeOpen := rfl
@[simp] theorem releaseLock_timing (p : PointIx) : (s.releaseLock p).timing = s.timing := rfl
@[simp] theorem releaseLock_alerts (p : PointIx) : (s.releaseLock p).alerts = s.alerts := rfl
@[simp] theorem releaseLock_lastServed (p : PointIx) : (s.releaseLock p).lastServed = s.lastServed := rfl
@[simp] theorem releaseLock_outputs (p : PointIx) : (s.releaseLock p).outputs = s.outputs := rfl
@[simp] theorem releaseLock_pending (p : PointIx) : (s.releaseLock p).pending = s.pending := rfl

/-! ### armSettle -/

@[simp] theorem armSettle_maps (p : PointIx) (n : Nat) : (s.armSettle p n).maps = s.maps := rfl
@[simp] theorem armSettle_contexts (p : PointIx) (n : Nat) : (s.armSettle p n).contexts = s.contexts := rfl
@[simp] theorem armSettle_endedList (p : PointIx) (n : Nat) : (s.armSettle p n).endedList = s.endedList := rfl
@[simp] theorem armSettle_links (p : PointIx) (n : Nat) : (s.armSettle p n).links = s.links := rfl
@[simp] theorem armSettle_sweepDiscards (p : PointIx) (n : Nat) : (s.armSettle p n).sweepDiscards = s.sweepDiscards := rfl
@[simp] theorem armSettle_outstanding (p : PointIx) (n : Nat) : (s.armSettle p n).outstanding = s.outstanding := rfl
@[simp] theorem armSettle_nextTag (p : PointIx) (n : Nat) : (s.armSettle p n).nextTag = s.nextTag := rfl
@[simp] theorem armSettle_unmatchedAcks (p : PointIx) (n : Nat) : (s.armSettle p n).unmatchedAcks = s.unmatchedAcks := rfl
@[simp] theorem armSettle_toSend (p : PointIx) (n : Nat) : (s.armSettle p n).toSend = s.toSend := rfl
@[simp] theorem armSettle_sending (p : PointIx) (n : Nat) : (s.armSettle p n).sending = s.sending := rfl
@[simp] theorem armSettle_strap (p : PointIx) (n : Nat) : (s.armSettle p n).strap = s.strap := rfl
@[simp] theorem armSettle_bus (p : PointIx) (n : Nat) : (s.armSettle p n).bus = s.bus := rfl
@[simp] theorem armSettle_intakes (p : PointIx) (n : Nat) : (s.armSettle p n).intakes = s.intakes := rfl
@[simp] theorem armSettle_holders (p : PointIx) (n : Nat) : (s.armSettle p n).holders = s.holders := rfl
@[simp] theorem armSettle_masks (p : PointIx) (n : Nat) : (s.armSettle p n).masks = s.masks := rfl
@[simp] theorem armSettle_changed (p : PointIx) (n : Nat) : (s.armSettle p n).changed = s.changed := rfl
@[simp] theorem armSettle_lockout (p : PointIx) (n : Nat) : (s.armSettle p n).lockout = s.lockout := rfl
@[simp] theorem armSettle_nodeId (p : PointIx) (n : Nat) : (s.armSettle p n).nodeId = s.nodeId := rfl
@[simp] theorem armSettle_nodeOpen (p : PointIx) (n : Nat) : (s.armSettle p n).nodeOpen = s.nodeOpen := rfl
@[simp] theorem armSettle_timing (p : PointIx) (n : Nat) : (s.armSettle p n).timing = s.timing := rfl
@[simp] theorem armSettle_alerts (p : PointIx) (n : Nat) : (s.armSettle p n).alerts = s.alerts := rfl
@[simp] theorem armSettle_lastServed (p : PointIx) (n : Nat) : (s.armSettle p n).lastServed = s.lastServed := rfl
@[simp] theorem armSettle_outputs (p : PointIx) (n : Nat) : (s.armSettle p n).outputs = s.outputs := rfl
@[simp] theorem armSettle_pending (p : PointIx) (n : Nat) : (s.armSettle p n).pending = s.pending := rfl

/-! ### stopCounting -/

@[simp] theorem stopCounting_maps (p : PointIx) : (s.stopCounting p).maps = s.maps := rfl
@[simp] theorem stopCounting_contexts (p : PointIx) : (s.stopCounting p).contexts = s.contexts := rfl
@[simp] theorem stopCounting_endedList (p : PointIx) : (s.stopCounting p).endedList = s.endedList := rfl
@[simp] theorem stopCounting_links (p : PointIx) : (s.stopCounting p).links = s.links := rfl
@[simp] theorem stopCounting_sweepDiscards (p : PointIx) : (s.stopCounting p).sweepDiscards = s.sweepDiscards := rfl
@[simp] theorem stopCounting_outstanding (p : PointIx) : (s.stopCounting p).outstanding = s.outstanding := rfl
@[simp] theorem stopCounting_nextTag (p : PointIx) : (s.stopCounting p).nextTag = s.nextTag := rfl
@[simp] theorem stopCounting_unmatchedAcks (p : PointIx) : (s.stopCounting p).unmatchedAcks = s.unmatchedAcks := rfl
@[simp] theorem stopCounting_toSend (p : PointIx) : (s.stopCounting p).toSend = s.toSend := rfl
@[simp] theorem stopCounting_sending (p : PointIx) : (s.stopCounting p).sending = s.sending := rfl
@[simp] theorem stopCounting_strap (p : PointIx) : (s.stopCounting p).strap = s.strap := rfl
@[simp] theorem stopCounting_bus (p : PointIx) : (s.stopCounting p).bus = s.bus := rfl
@[simp] theorem stopCounting_intakes (p : PointIx) : (s.stopCounting p).intakes = s.intakes := rfl
@[simp] theorem stopCounting_holders (p : PointIx) : (s.stopCounting p).holders = s.holders := rfl
@[simp] theorem stopCounting_masks (p : PointIx) : (s.stopCounting p).masks = s.masks := rfl
@[simp] theorem stopCounting_changed (p : PointIx) : (s.stopCounting p).changed = s.changed := rfl
@[simp] theorem stopCounting_lockout (p : PointIx) : (s.stopCounting p).lockout = s.lockout := rfl
@[simp] theorem stopCounting_nodeId (p : PointIx) : (s.stopCounting p).nodeId = s.nodeId := rfl
@[simp] theorem stopCounting_nodeOpen (p : PointIx) : (s.stopCounting p).nodeOpen = s.nodeOpen := rfl
@[simp] theorem stopCounting_timing (p : PointIx) : (s.stopCounting p).timing = s.timing := rfl
@[simp] theorem stopCounting_alerts (p : PointIx) : (s.stopCounting p).alerts = s.alerts := rfl
@[simp] theorem stopCounting_lastServed (p : PointIx) : (s.stopCounting p).lastServed = s.lastServed := rfl
@[simp] theorem stopCounting_outputs (p : PointIx) : (s.stopCounting p).outputs = s.outputs := rfl
@[simp] theorem stopCounting_pending (p : PointIx) : (s.stopCounting p).pending = s.pending := rfl

/-! ### refreshReferences -/

@[simp] theorem refreshReferences_maps (p : PointIx) : (s.refreshReferences p).maps = s.maps := rfl
@[simp] theorem refreshReferences_endedList (p : PointIx) : (s.refreshReferences p).endedList = s.endedList := rfl
@[simp] theorem refreshReferences_points (p : PointIx) : (s.refreshReferences p).points = s.points := rfl
@[simp] theorem refreshReferences_links (p : PointIx) : (s.refreshReferences p).links = s.links := rfl
@[simp] theorem refreshReferences_sweepDiscards (p : PointIx) : (s.refreshReferences p).sweepDiscards = s.sweepDiscards := rfl
@[simp] theorem refreshReferences_outstanding (p : PointIx) : (s.refreshReferences p).outstanding = s.outstanding := rfl
@[simp] theorem refreshReferences_nextTag (p : PointIx) : (s.refreshReferences p).nextTag = s.nextTag := rfl
@[simp] theorem refreshReferences_unmatchedAcks (p : PointIx) : (s.refreshReferences p).unmatchedAcks = s.unmatchedAcks := rfl
@[simp] theorem refreshReferences_toSend (p : PointIx) : (s.refreshReferences p).toSend = s.toSend := rfl
@[simp] theorem refreshReferences_sending (p : PointIx) : (s.refreshReferences p).sending = s.sending := rfl
@[simp] theorem refreshReferences_strap (p : PointIx) : (s.refreshReferences p).strap = s.strap := rfl
@[simp] theorem refreshReferences_bus (p : PointIx) : (s.refreshReferences p).bus = s.bus := rfl
@[simp] theorem refreshReferences_intakes (p : PointIx) : (s.refreshReferences p).intakes = s.intakes := rfl
@[simp] theorem refreshReferences_holders (p : PointIx) : (s.refreshReferences p).holders = s.holders := rfl
@[simp] theorem refreshReferences_masks (p : PointIx) : (s.refreshReferences p).masks = s.masks := rfl
@[simp] theorem refreshReferences_changed (p : PointIx) : (s.refreshReferences p).changed = s.changed := rfl
@[simp] theorem refreshReferences_lockout (p : PointIx) : (s.refreshReferences p).lockout = s.lockout := rfl
@[simp] theorem refreshReferences_nodeId (p : PointIx) : (s.refreshReferences p).nodeId = s.nodeId := rfl
@[simp] theorem refreshReferences_nodeOpen (p : PointIx) : (s.refreshReferences p).nodeOpen = s.nodeOpen := rfl
@[simp] theorem refreshReferences_timing (p : PointIx) : (s.refreshReferences p).timing = s.timing := rfl
@[simp] theorem refreshReferences_alerts (p : PointIx) : (s.refreshReferences p).alerts = s.alerts := rfl
@[simp] theorem refreshReferences_lastServed (p : PointIx) : (s.refreshReferences p).lastServed = s.lastServed := rfl
@[simp] theorem refreshReferences_outputs (p : PointIx) : (s.refreshReferences p).outputs = s.outputs := rfl
@[simp] theorem refreshReferences_pending (p : PointIx) : (s.refreshReferences p).pending = s.pending := rfl

/-! ### setIntake -/

@[simp] theorem setIntake_maps (st : Station) (x : Intake) : (s.setIntake st x).maps = s.maps := rfl
@[simp] theorem setIntake_contexts (st : Station) (x : Intake) : (s.setIntake st x).contexts = s.contexts := rfl
@[simp] theorem setIntake_endedList (st : Station) (x : Intake) : (s.setIntake st x).endedList = s.endedList := rfl
@[simp] theorem setIntake_points (st : Station) (x : Intake) : (s.setIntake st x).points = s.points := rfl
@[simp] theorem setIntake_links (st : Station) (x : Intake) : (s.setIntake st x).links = s.links := rfl
@[simp] theorem setIntake_sweepDiscards (st : Station) (x : Intake) : (s.setIntake st x).sweepDiscards = s.sweepDiscards := rfl
@[simp] theorem setIntake_outstanding (st : Station) (x : Intake) : (s.setIntake st x).outstanding = s.outstanding := rfl
@[simp] theorem setIntake_nextTag (st : Station) (x : Intake) : (s.setIntake st x).nextTag = s.nextTag := rfl
@[simp] theorem setIntake_unmatchedAcks (st : Station) (x : Intake) : (s.setIntake st x).unmatchedAcks = s.unmatchedAcks := rfl
@[simp] theorem setIntake_toSend (st : Station) (x : Intake) : (s.setIntake st x).toSend = s.toSend := rfl
@[simp] theorem setIntake_sending (st : Station) (x : Intake) : (s.setIntake st x).sending = s.sending := rfl
@[simp] theorem setIntake_strap (st : Station) (x : Intake) : (s.setIntake st x).strap = s.strap := rfl
@[simp] theorem setIntake_bus (st : Station) (x : Intake) : (s.setIntake st x).bus = s.bus := rfl
@[simp] theorem setIntake_holders (st : Station) (x : Intake) : (s.setIntake st x).holders = s.holders := rfl
@[simp] theorem setIntake_masks (st : Station) (x : Intake) : (s.setIntake st x).masks = s.masks := rfl
@[simp] theorem setIntake_changed (st : Station) (x : Intake) : (s.setIntake st x).changed = s.changed := rfl
@[simp] theorem setIntake_lockout (st : Station) (x : Intake) : (s.setIntake st x).lockout = s.lockout := rfl
@[simp] theorem setIntake_nodeId (st : Station) (x : Intake) : (s.setIntake st x).nodeId = s.nodeId := rfl
@[simp] theorem setIntake_nodeOpen (st : Station) (x : Intake) : (s.setIntake st x).nodeOpen = s.nodeOpen := rfl
@[simp] theorem setIntake_timing (st : Station) (x : Intake) : (s.setIntake st x).timing = s.timing := rfl
@[simp] theorem setIntake_alerts (st : Station) (x : Intake) : (s.setIntake st x).alerts = s.alerts := rfl
@[simp] theorem setIntake_lastServed (st : Station) (x : Intake) : (s.setIntake st x).lastServed = s.lastServed := rfl
@[simp] theorem setIntake_outputs (st : Station) (x : Intake) : (s.setIntake st x).outputs = s.outputs := rfl
@[simp] theorem setIntake_pending (st : Station) (x : Intake) : (s.setIntake st x).pending = s.pending := rfl

/-! ### setHolder -/

@[simp] theorem setHolder_maps (st : Station) (x : Option (List Byte)) : (s.setHolder st x).maps = s.maps := rfl
@[simp] theorem setHolder_contexts (st : Station) (x : Option (List Byte)) : (s.setHolder st x).contexts = s.contexts := rfl
@[simp] theorem setHolder_endedList (st : Station) (x : Option (List Byte)) : (s.setHolder st x).endedList = s.endedList := rfl
@[simp] theorem setHolder_points (st : Station) (x : Option (List Byte)) : (s.setHolder st x).points = s.points := rfl
@[simp] theorem setHolder_links (st : Station) (x : Option (List Byte)) : (s.setHolder st x).links = s.links := rfl
@[simp] theorem setHolder_sweepDiscards (st : Station) (x : Option (List Byte)) : (s.setHolder st x).sweepDiscards = s.sweepDiscards := rfl
@[simp] theorem setHolder_outstanding (st : Station) (x : Option (List Byte)) : (s.setHolder st x).outstanding = s.outstanding := rfl
@[simp] theorem setHolder_nextTag (st : Station) (x : Option (List Byte)) : (s.setHolder st x).nextTag = s.nextTag := rfl
@[simp] theorem setHolder_unmatchedAcks (st : Station) (x : Option (List Byte)) : (s.setHolder st x).unmatchedAcks = s.unmatchedAcks := rfl
@[simp] theorem setHolder_toSend (st : Station) (x : Option (List Byte)) : (s.setHolder st x).toSend = s.toSend := rfl
@[simp] theorem setHolder_sending (st : Station) (x : Option (List Byte)) : (s.setHolder st x).sending = s.sending := rfl
@[simp] theorem setHolder_strap (st : Station) (x : Option (List Byte)) : (s.setHolder st x).strap = s.strap := rfl
@[simp] theorem setHolder_bus (st : Station) (x : Option (List Byte)) : (s.setHolder st x).bus = s.bus := rfl
@[simp] theorem setHolder_intakes (st : Station) (x : Option (List Byte)) : (s.setHolder st x).intakes = s.intakes := rfl
@[simp] theorem setHolder_masks (st : Station) (x : Option (List Byte)) : (s.setHolder st x).masks = s.masks := rfl
@[simp] theorem setHolder_changed (st : Station) (x : Option (List Byte)) : (s.setHolder st x).changed = s.changed := rfl
@[simp] theorem setHolder_lockout (st : Station) (x : Option (List Byte)) : (s.setHolder st x).lockout = s.lockout := rfl
@[simp] theorem setHolder_nodeId (st : Station) (x : Option (List Byte)) : (s.setHolder st x).nodeId = s.nodeId := rfl
@[simp] theorem setHolder_nodeOpen (st : Station) (x : Option (List Byte)) : (s.setHolder st x).nodeOpen = s.nodeOpen := rfl
@[simp] theorem setHolder_timing (st : Station) (x : Option (List Byte)) : (s.setHolder st x).timing = s.timing := rfl
@[simp] theorem setHolder_alerts (st : Station) (x : Option (List Byte)) : (s.setHolder st x).alerts = s.alerts := rfl
@[simp] theorem setHolder_lastServed (st : Station) (x : Option (List Byte)) : (s.setHolder st x).lastServed = s.lastServed := rfl
@[simp] theorem setHolder_outputs (st : Station) (x : Option (List Byte)) : (s.setHolder st x).outputs = s.outputs := rfl
@[simp] theorem setHolder_pending (st : Station) (x : Option (List Byte)) : (s.setHolder st x).pending = s.pending := rfl

/-! ### busClear -/

@[simp] theorem busClear_maps : (s.busClear).maps = s.maps := rfl
@[simp] theorem busClear_contexts : (s.busClear).contexts = s.contexts := rfl
@[simp] theorem busClear_endedList : (s.busClear).endedList = s.endedList := rfl
@[simp] theorem busClear_points : (s.busClear).points = s.points := rfl
@[simp] theorem busClear_links : (s.busClear).links = s.links := rfl
@[simp] theorem busClear_sweepDiscards : (s.busClear).sweepDiscards = s.sweepDiscards := rfl
@[simp] theorem busClear_outstanding : (s.busClear).outstanding = s.outstanding := rfl
@[simp] theorem busClear_nextTag : (s.busClear).nextTag = s.nextTag := rfl
@[simp] theorem busClear_unmatchedAcks : (s.busClear).unmatchedAcks = s.unmatchedAcks := rfl
@[simp] theorem busClear_toSend : (s.busClear).toSend = s.toSend := rfl
@[simp] theorem busClear_sending : (s.busClear).sending = s.sending := rfl
@[simp] theorem busClear_strap : (s.busClear).strap = s.strap := rfl
@[simp] theorem busClear_masks : (s.busClear).masks = s.masks := rfl
@[simp] theorem busClear_changed : (s.busClear).changed = s.changed := rfl
@[simp] theorem busClear_lockout : (s.busClear).lockout = s.lockout := rfl
@[simp] theorem busClear_nodeId : (s.busClear).nodeId = s.nodeId := rfl
@[simp] theorem busClear_nodeOpen : (s.busClear).nodeOpen = s.nodeOpen := rfl
@[simp] theorem busClear_timing : (s.busClear).timing = s.timing := rfl
@[simp] theorem busClear_alerts : (s.busClear).alerts = s.alerts := rfl
@[simp] theorem busClear_lastServed : (s.busClear).lastServed = s.lastServed := rfl
@[simp] theorem busClear_outputs : (s.busClear).outputs = s.outputs := rfl
@[simp] theorem busClear_pending : (s.busClear).pending = s.pending := rfl

/-! ### removeHead -/

@[simp] theorem removeHead_maps (d : Degree) : (s.removeHead d).maps = s.maps := rfl
@[simp] theorem removeHead_contexts (d : Degree) : (s.removeHead d).contexts = s.contexts := rfl
@[simp] theorem removeHead_endedList (d : Degree) : (s.removeHead d).endedList = s.endedList := rfl
@[simp] theorem removeHead_points (d : Degree) : (s.removeHead d).points = s.points := rfl
@[simp] theorem removeHead_sweepDiscards (d : Degree) : (s.removeHead d).sweepDiscards = s.sweepDiscards := rfl
@[simp] theorem removeHead_outstanding (d : Degree) : (s.removeHead d).outstanding = s.outstanding := rfl
@[simp] theorem removeHead_nextTag (d : Degree) : (s.removeHead d).nextTag = s.nextTag := rfl
@[simp] theorem removeHead_unmatchedAcks (d : Degree) : (s.removeHead d).unmatchedAcks = s.unmatchedAcks := rfl
@[simp] theorem removeHead_toSend (d : Degree) : (s.removeHead d).toSend = s.toSend := rfl
@[simp] theorem removeHead_sending (d : Degree) : (s.removeHead d).sending = s.sending := rfl
@[simp] theorem removeHead_strap (d : Degree) : (s.removeHead d).strap = s.strap := rfl
@[simp] theorem removeHead_bus (d : Degree) : (s.removeHead d).bus = s.bus := rfl
@[simp] theorem removeHead_intakes (d : Degree) : (s.removeHead d).intakes = s.intakes := rfl
@[simp] theorem removeHead_holders (d : Degree) : (s.removeHead d).holders = s.holders := rfl
@[simp] theorem removeHead_masks (d : Degree) : (s.removeHead d).masks = s.masks := rfl
@[simp] theorem removeHead_changed (d : Degree) : (s.removeHead d).changed = s.changed := rfl
@[simp] theorem removeHead_lockout (d : Degree) : (s.removeHead d).lockout = s.lockout := rfl
@[simp] theorem removeHead_nodeId (d : Degree) : (s.removeHead d).nodeId = s.nodeId := rfl
@[simp] theorem removeHead_nodeOpen (d : Degree) : (s.removeHead d).nodeOpen = s.nodeOpen := rfl
@[simp] theorem removeHead_timing (d : Degree) : (s.removeHead d).timing = s.timing := rfl
@[simp] theorem removeHead_alerts (d : Degree) : (s.removeHead d).alerts = s.alerts := rfl
@[simp] theorem removeHead_lastServed (d : Degree) : (s.removeHead d).lastServed = s.lastServed := rfl
@[simp] theorem removeHead_outputs (d : Degree) : (s.removeHead d).outputs = s.outputs := rfl
@[simp] theorem removeHead_pending (d : Degree) : (s.removeHead d).pending = s.pending := rfl

/-! ### countMalformed -/

@[simp] theorem countMalformed_maps (d : Degree) : (s.countMalformed d).maps = s.maps := rfl
@[simp] theorem countMalformed_contexts (d : Degree) : (s.countMalformed d).contexts = s.contexts := rfl
@[simp] theorem countMalformed_endedList (d : Degree) : (s.countMalformed d).endedList = s.endedList := rfl
@[simp] theorem countMalformed_points (d : Degree) : (s.countMalformed d).points = s.points := rfl
@[simp] theorem countMalformed_sweepDiscards (d : Degree) : (s.countMalformed d).sweepDiscards = s.sweepDiscards := rfl
@[simp] theorem countMalformed_outstanding (d : Degree) : (s.countMalformed d).outstanding = s.outstanding := rfl
@[simp] theorem countMalformed_nextTag (d : Degree) : (s.countMalformed d).nextTag = s.nextTag := rfl
@[simp] theorem countMalformed_unmatchedAcks (d : Degree) : (s.countMalformed d).unmatchedAcks = s.unmatchedAcks := rfl
@[simp] theorem countMalformed_toSend (d : Degree) : (s.countMalformed d).toSend = s.toSend := rfl
@[simp] theorem countMalformed_sending (d : Degree) : (s.countMalformed d).sending = s.sending := rfl
@[simp] theorem countMalformed_strap (d : Degree) : (s.countMalformed d).strap = s.strap := rfl
@[simp] theorem countMalformed_bus (d : Degree) : (s.countMalformed d).bus = s.bus := rfl
@[simp] theorem countMalformed_intakes (d : Degree) : (s.countMalformed d).intakes = s.intakes := rfl
@[simp] theorem countMalformed_holders (d : Degree) : (s.countMalformed d).holders = s.holders := rfl
@[simp] theorem countMalformed_masks (d : Degree) : (s.countMalformed d).masks = s.masks := rfl
@[simp] theorem countMalformed_changed (d : Degree) : (s.countMalformed d).changed = s.changed := rfl
@[simp] theorem countMalformed_lockout (d : Degree) : (s.countMalformed d).lockout = s.lockout := rfl
@[simp] theorem countMalformed_nodeId (d : Degree) : (s.countMalformed d).nodeId = s.nodeId := rfl
@[simp] theorem countMalformed_nodeOpen (d : Degree) : (s.countMalformed d).nodeOpen = s.nodeOpen := rfl
@[simp] theorem countMalformed_timing (d : Degree) : (s.countMalformed d).timing = s.timing := rfl
@[simp] theorem countMalformed_alerts (d : Degree) : (s.countMalformed d).alerts = s.alerts := rfl
@[simp] theorem countMalformed_lastServed (d : Degree) : (s.countMalformed d).lastServed = s.lastServed := rfl
@[simp] theorem countMalformed_outputs (d : Degree) : (s.countMalformed d).outputs = s.outputs := rfl
@[simp] theorem countMalformed_pending (d : Degree) : (s.countMalformed d).pending = s.pending := rfl

/-! ### countStray -/

@[simp] theorem countStray_maps (d : Degree) : (s.countStray d).maps = s.maps := rfl
@[simp] theorem countStray_contexts (d : Degree) : (s.countStray d).contexts = s.contexts := rfl
@[simp] theorem countStray_endedList (d : Degree) : (s.countStray d).endedList = s.endedList := rfl
@[simp] theorem countStray_points (d : Degree) : (s.countStray d).points = s.points := rfl
@[simp] theorem countStray_sweepDiscards (d : Degree) : (s.countStray d).sweepDiscards = s.sweepDiscards := rfl
@[simp] theorem countStray_outstanding (d : Degree) : (s.countStray d).outstanding = s.outstanding := rfl
@[simp] theorem countStray_nextTag (d : Degree) : (s.countStray d).nextTag = s.nextTag := rfl
@[simp] theorem countStray_unmatchedAcks (d : Degree) : (s.countStray d).unmatchedAcks = s.unmatchedAcks := rfl
@[simp] theorem countStray_toSend (d : Degree) : (s.countStray d).toSend = s.toSend := rfl
@[simp] theorem countStray_sending (d : Degree) : (s.countStray d).sending = s.sending := rfl
@[simp] theorem countStray_strap (d : Degree) : (s.countStray d).strap = s.strap := rfl
@[simp] theorem countStray_bus (d : Degree) : (s.countStray d).bus = s.bus := rfl
@[simp] theorem countStray_intakes (d : Degree) : (s.countStray d).intakes = s.intakes := rfl
@[simp] theorem countStray_holders (d : Degree) : (s.countStray d).holders = s.holders := rfl
@[simp] theorem countStray_masks (d : Degree) : (s.countStray d).masks = s.masks := rfl
@[simp] theorem countStray_changed (d : Degree) : (s.countStray d).changed = s.changed := rfl
@[simp] theorem countStray_lockout (d : Degree) : (s.countStray d).lockout = s.lockout := rfl
@[simp] theorem countStray_nodeId (d : Degree) : (s.countStray d).nodeId = s.nodeId := rfl
@[simp] theorem countStray_nodeOpen (d : Degree) : (s.countStray d).nodeOpen = s.nodeOpen := rfl
@[simp] theorem countStray_timing (d : Degree) : (s.countStray d).timing = s.timing := rfl
@[simp] theorem countStray_alerts (d : Degree) : (s.countStray d).alerts = s.alerts := rfl
@[simp] theorem countStray_lastServed (d : Degree) : (s.countStray d).lastServed = s.lastServed := rfl
@[simp] theorem countStray_outputs (d : Degree) : (s.countStray d).outputs = s.outputs := rfl
@[simp] theorem countStray_pending (d : Degree) : (s.countStray d).pending = s.pending := rfl

/-! ### discardSweep -/

@[simp] theorem discardSweep_maps : (s.discardSweep).maps = s.maps := rfl
@[simp] theorem discardSweep_contexts : (s.discardSweep).contexts = s.contexts := rfl
@[simp] theorem discardSweep_endedList : (s.discardSweep).endedList = s.endedList := rfl
@[simp] theorem discardSweep_points : (s.discardSweep).points = s.points := rfl
@[simp] theorem discardSweep_links : (s.discardSweep).links = s.links := rfl
@[simp] theorem discardSweep_outstanding : (s.discardSweep).outstanding = s.outstanding := rfl
@[simp] theorem discardSweep_nextTag : (s.discardSweep).nextTag = s.nextTag := rfl
@[simp] theorem discardSweep_unmatchedAcks : (s.discardSweep).unmatchedAcks = s.unmatchedAcks := rfl
@[simp] theorem discardSweep_toSend : (s.discardSweep).toSend = s.toSend := rfl
@[simp] theorem discardSweep_sending : (s.discardSweep).sending = s.sending := rfl
@[simp] theorem discardSweep_strap : (s.discardSweep).strap = s.strap := rfl
@[simp] theorem discardSweep_bus : (s.discardSweep).bus = s.bus := rfl
@[simp] theorem discardSweep_intakes : (s.discardSweep).intakes = s.intakes := rfl
@[simp] theorem discardSweep_holders : (s.discardSweep).holders = s.holders := rfl
@[simp] theorem discardSweep_masks : (s.discardSweep).masks = s.masks := rfl
@[simp] theorem discardSweep_changed : (s.discardSweep).changed = s.changed := rfl
@[simp] theorem discardSweep_lockout : (s.discardSweep).lockout = s.lockout := rfl
@[simp] theorem discardSweep_nodeId : (s.discardSweep).nodeId = s.nodeId := rfl
@[simp] theorem discardSweep_nodeOpen : (s.discardSweep).nodeOpen = s.nodeOpen := rfl
@[simp] theorem discardSweep_timing : (s.discardSweep).timing = s.timing := rfl
@[simp] theorem discardSweep_lastServed : (s.discardSweep).lastServed = s.lastServed := rfl
@[simp] theorem discardSweep_outputs : (s.discardSweep).outputs = s.outputs := rfl
@[simp] theorem discardSweep_pending : (s.discardSweep).pending = s.pending := rfl

/-! ### removeEntry -/

@[simp] theorem removeEntry_maps (p : PointIx) : (s.removeEntry p).maps = s.maps := rfl
@[simp] theorem removeEntry_contexts (p : PointIx) : (s.removeEntry p).contexts = s.contexts := rfl
@[simp] theorem removeEntry_endedList (p : PointIx) : (s.removeEntry p).endedList = s.endedList := rfl
@[simp] theorem removeEntry_points (p : PointIx) : (s.removeEntry p).points = s.points := rfl
@[simp] theorem removeEntry_links (p : PointIx) : (s.removeEntry p).links = s.links := rfl
@[simp] theorem removeEntry_sweepDiscards (p : PointIx) : (s.removeEntry p).sweepDiscards = s.sweepDiscards := rfl
@[simp] theorem removeEntry_nextTag (p : PointIx) : (s.removeEntry p).nextTag = s.nextTag := rfl
@[simp] theorem removeEntry_unmatchedAcks (p : PointIx) : (s.removeEntry p).unmatchedAcks = s.unmatchedAcks := rfl
@[simp] theorem removeEntry_toSend (p : PointIx) : (s.removeEntry p).toSend = s.toSend := rfl
@[simp] theorem removeEntry_sending (p : PointIx) : (s.removeEntry p).sending = s.sending := rfl
@[simp] theorem removeEntry_strap (p : PointIx) : (s.removeEntry p).strap = s.strap := rfl
@[simp] theorem removeEntry_bus (p : PointIx) : (s.removeEntry p).bus = s.bus := rfl
@[simp] theorem removeEntry_intakes (p : PointIx) : (s.removeEntry p).intakes = s.intakes := rfl
@[simp] theorem removeEntry_holders (p : PointIx) : (s.removeEntry p).holders = s.holders := rfl
@[simp] theorem removeEntry_masks (p : PointIx) : (s.removeEntry p).masks = s.masks := rfl
@[simp] theorem removeEntry_changed (p : PointIx) : (s.removeEntry p).changed = s.changed := rfl
@[simp] theorem removeEntry_lockout (p : PointIx) : (s.removeEntry p).lockout = s.lockout := rfl
@[simp] theorem removeEntry_nodeId (p : PointIx) : (s.removeEntry p).nodeId = s.nodeId := rfl
@[simp] theorem removeEntry_nodeOpen (p : PointIx) : (s.removeEntry p).nodeOpen = s.nodeOpen := rfl
@[simp] theorem removeEntry_timing (p : PointIx) : (s.removeEntry p).timing = s.timing := rfl
@[simp] theorem removeEntry_alerts (p : PointIx) : (s.removeEntry p).alerts = s.alerts := rfl
@[simp] theorem removeEntry_lastServed (p : PointIx) : (s.removeEntry p).lastServed = s.lastServed := rfl
@[simp] theorem removeEntry_outputs (p : PointIx) : (s.removeEntry p).outputs = s.outputs := rfl
@[simp] theorem removeEntry_pending (p : PointIx) : (s.removeEntry p).pending = s.pending := rfl

/-! ### unmatched -/

@[simp] theorem unmatched_maps : (s.unmatched).maps = s.maps := rfl
@[simp] theorem unmatched_contexts : (s.unmatched).contexts = s.contexts := rfl
@[simp] theorem unmatched_endedList : (s.unmatched).endedList = s.endedList := rfl
@[simp] theorem unmatched_points : (s.unmatched).points = s.points := rfl
@[simp] theorem unmatched_links : (s.unmatched).links = s.links := rfl
@[simp] theorem unmatched_sweepDiscards : (s.unmatched).sweepDiscards = s.sweepDiscards := rfl
@[simp] theorem unmatched_outstanding : (s.unmatched).outstanding = s.outstanding := rfl
@[simp] theorem unmatched_nextTag : (s.unmatched).nextTag = s.nextTag := rfl
@[simp] theorem unmatched_toSend : (s.unmatched).toSend = s.toSend := rfl
@[simp] theorem unmatched_sending : (s.unmatched).sending = s.sending := rfl
@[simp] theorem unmatched_strap : (s.unmatched).strap = s.strap := rfl
@[simp] theorem unmatched_bus : (s.unmatched).bus = s.bus := rfl
@[simp] theorem unmatched_intakes : (s.unmatched).intakes = s.intakes := rfl
@[simp] theorem unmatched_holders : (s.unmatched).holders = s.holders := rfl
@[simp] theorem unmatched_masks : (s.unmatched).masks = s.masks := rfl
@[simp] theorem unmatched_changed : (s.unmatched).changed = s.changed := rfl
@[simp] theorem unmatched_lockout : (s.unmatched).lockout = s.lockout := rfl
@[simp] theorem unmatched_nodeId : (s.unmatched).nodeId = s.nodeId := rfl
@[simp] theorem unmatched_nodeOpen : (s.unmatched).nodeOpen = s.nodeOpen := rfl
@[simp] theorem unmatched_timing : (s.unmatched).timing = s.timing := rfl
@[simp] theorem unmatched_lastServed : (s.unmatched).lastServed = s.lastServed := rfl
@[simp] theorem unmatched_outputs : (s.unmatched).outputs = s.outputs := rfl
@[simp] theorem unmatched_pending : (s.unmatched).pending = s.pending := rfl

/-! ### later -/

@[simp] theorem later_maps : (s.later).maps = s.maps := rfl
@[simp] theorem later_endedList : (s.later).endedList = s.endedList := rfl
@[simp] theorem later_links : (s.later).links = s.links := rfl
@[simp] theorem later_sweepDiscards : (s.later).sweepDiscards = s.sweepDiscards := rfl
@[simp] theorem later_nextTag : (s.later).nextTag = s.nextTag := rfl
@[simp] theorem later_unmatchedAcks : (s.later).unmatchedAcks = s.unmatchedAcks := rfl
@[simp] theorem later_toSend : (s.later).toSend = s.toSend := rfl
@[simp] theorem later_sending : (s.later).sending = s.sending := rfl
@[simp] theorem later_strap : (s.later).strap = s.strap := rfl
@[simp] theorem later_bus : (s.later).bus = s.bus := rfl
@[simp] theorem later_intakes : (s.later).intakes = s.intakes := rfl
@[simp] theorem later_holders : (s.later).holders = s.holders := rfl
@[simp] theorem later_masks : (s.later).masks = s.masks := rfl
@[simp] theorem later_changed : (s.later).changed = s.changed := rfl
@[simp] theorem later_lockout : (s.later).lockout = s.lockout := rfl
@[simp] theorem later_nodeId : (s.later).nodeId = s.nodeId := rfl
@[simp] theorem later_nodeOpen : (s.later).nodeOpen = s.nodeOpen := rfl
@[simp] theorem later_timing : (s.later).timing = s.timing := rfl
@[simp] theorem later_alerts : (s.later).alerts = s.alerts := rfl
@[simp] theorem later_lastServed : (s.later).lastServed = s.lastServed := rfl
@[simp] theorem later_outputs : (s.later).outputs = s.outputs := rfl
@[simp] theorem later_pending : (s.later).pending = s.pending := rfl

/-! ### taken -/

@[simp] theorem taken_maps (st : Station) : (s.taken st).maps = s.maps := rfl
@[simp] theorem taken_contexts (st : Station) : (s.taken st).contexts = s.contexts := rfl
@[simp] theorem taken_endedList (st : Station) : (s.taken st).endedList = s.endedList := rfl
@[simp] theorem taken_points (st : Station) : (s.taken st).points = s.points := rfl
@[simp] theorem taken_links (st : Station) : (s.taken st).links = s.links := rfl
@[simp] theorem taken_sweepDiscards (st : Station) : (s.taken st).sweepDiscards = s.sweepDiscards := rfl
@[simp] theorem taken_outstanding (st : Station) : (s.taken st).outstanding = s.outstanding := rfl
@[simp] theorem taken_nextTag (st : Station) : (s.taken st).nextTag = s.nextTag := rfl
@[simp] theorem taken_unmatchedAcks (st : Station) : (s.taken st).unmatchedAcks = s.unmatchedAcks := rfl
@[simp] theorem taken_toSend (st : Station) : (s.taken st).toSend = s.toSend := rfl
@[simp] theorem taken_sending (st : Station) : (s.taken st).sending = s.sending := rfl
@[simp] theorem taken_strap (st : Station) : (s.taken st).strap = s.strap := rfl
@[simp] theorem taken_holders (st : Station) : (s.taken st).holders = s.holders := rfl
@[simp] theorem taken_masks (st : Station) : (s.taken st).masks = s.masks := rfl
@[simp] theorem taken_changed (st : Station) : (s.taken st).changed = s.changed := rfl
@[simp] theorem taken_lockout (st : Station) : (s.taken st).lockout = s.lockout := rfl
@[simp] theorem taken_nodeId (st : Station) : (s.taken st).nodeId = s.nodeId := rfl
@[simp] theorem taken_nodeOpen (st : Station) : (s.taken st).nodeOpen = s.nodeOpen := rfl
@[simp] theorem taken_timing (st : Station) : (s.taken st).timing = s.timing := rfl
@[simp] theorem taken_alerts (st : Station) : (s.taken st).alerts = s.alerts := rfl
@[simp] theorem taken_outputs (st : Station) : (s.taken st).outputs = s.outputs := rfl
@[simp] theorem taken_pending (st : Station) : (s.taken st).pending = s.pending := rfl

/-! ### accepting -/

@[simp] theorem accepting_maps (st : Station) (code : Byte) (data : List Byte) : (s.accepting st code data).maps = s.maps := rfl
@[simp] theorem accepting_contexts (st : Station) (code : Byte) (data : List Byte) : (s.accepting st code data).contexts = s.contexts := rfl
@[simp] theorem accepting_endedList (st : Station) (code : Byte) (data : List Byte) : (s.accepting st code data).endedList = s.endedList := rfl
@[simp] theorem accepting_points (st : Station) (code : Byte) (data : List Byte) : (s.accepting st code data).points = s.points := rfl
@[simp] theorem accepting_links (st : Station) (code : Byte) (data : List Byte) : (s.accepting st code data).links = s.links := rfl
@[simp] theorem accepting_sweepDiscards (st : Station) (code : Byte) (data : List Byte) : (s.accepting st code data).sweepDiscards = s.sweepDiscards := rfl
@[simp] theorem accepting_outstanding (st : Station) (code : Byte) (data : List Byte) : (s.accepting st code data).outstanding = s.outstanding := rfl
@[simp] theorem accepting_nextTag (st : Station) (code : Byte) (data : List Byte) : (s.accepting st code data).nextTag = s.nextTag := rfl
@[simp] theorem accepting_unmatchedAcks (st : Station) (code : Byte) (data : List Byte) : (s.accepting st code data).unmatchedAcks = s.unmatchedAcks := rfl
@[simp] theorem accepting_toSend (st : Station) (code : Byte) (data : List Byte) : (s.accepting st code data).toSend = s.toSend := rfl
@[simp] theorem accepting_sending (st : Station) (code : Byte) (data : List Byte) : (s.accepting st code data).sending = s.sending := rfl
@[simp] theorem accepting_strap (st : Station) (code : Byte) (data : List Byte) : (s.accepting st code data).strap = s.strap := rfl
@[simp] theorem accepting_bus (st : Station) (code : Byte) (data : List Byte) : (s.accepting st code data).bus = s.bus := rfl
@[simp] theorem accepting_intakes (st : Station) (code : Byte) (data : List Byte) : (s.accepting st code data).intakes = s.intakes := rfl
@[simp] theorem accepting_masks (st : Station) (code : Byte) (data : List Byte) : (s.accepting st code data).masks = s.masks := rfl
@[simp] theorem accepting_changed (st : Station) (code : Byte) (data : List Byte) : (s.accepting st code data).changed = s.changed := rfl
@[simp] theorem accepting_lockout (st : Station) (code : Byte) (data : List Byte) : (s.accepting st code data).lockout = s.lockout := rfl
@[simp] theorem accepting_nodeId (st : Station) (code : Byte) (data : List Byte) : (s.accepting st code data).nodeId = s.nodeId := rfl
@[simp] theorem accepting_nodeOpen (st : Station) (code : Byte) (data : List Byte) : (s.accepting st code data).nodeOpen = s.nodeOpen := rfl
@[simp] theorem accepting_timing (st : Station) (code : Byte) (data : List Byte) : (s.accepting st code data).timing = s.timing := rfl
@[simp] theorem accepting_alerts (st : Station) (code : Byte) (data : List Byte) : (s.accepting st code data).alerts = s.alerts := rfl
@[simp] theorem accepting_lastServed (st : Station) (code : Byte) (data : List Byte) : (s.accepting st code data).lastServed = s.lastServed := rfl
@[simp] theorem accepting_outputs (st : Station) (code : Byte) (data : List Byte) : (s.accepting st code data).outputs = s.outputs := rfl
@[simp] theorem accepting_pending (st : Station) (code : Byte) (data : List Byte) : (s.accepting st code data).pending = s.pending := rfl

/-! ### refusing -/

@[simp] theorem refusing_maps (st : Station) (code result : Byte) (detail : List Byte) : (s.refusing st code result detail).maps = s.maps := rfl
@[simp] theorem refusing_contexts (st : Station) (code result : Byte) (detail : List Byte) : (s.refusing st code result detail).contexts = s.contexts := rfl
@[simp] theorem refusing_endedList (st : Station) (code result : Byte) (detail : List Byte) : (s.refusing st code result detail).endedList = s.endedList := rfl
@[simp] theorem refusing_points (st : Station) (code result : Byte) (detail : List Byte) : (s.refusing st code result detail).points = s.points := rfl
@[simp] theorem refusing_links (st : Station) (code result : Byte) (detail : List Byte) : (s.refusing st code result detail).links = s.links := rfl
@[simp] theorem refusing_sweepDiscards (st : Station) (code result : Byte) (detail : List Byte) : (s.refusing st code result detail).sweepDiscards = s.sweepDiscards := rfl
@[simp] theorem refusing_outstanding (st : Station) (code result : Byte) (detail : List Byte) : (s.refusing st code result detail).outstanding = s.outstanding := rfl
@[simp] theorem refusing_nextTag (st : Station) (code result : Byte) (detail : List Byte) : (s.refusing st code result detail).nextTag = s.nextTag := rfl
@[simp] theorem refusing_unmatchedAcks (st : Station) (code result : Byte) (detail : List Byte) : (s.refusing st code result detail).unmatchedAcks = s.unmatchedAcks := rfl
@[simp] theorem refusing_toSend (st : Station) (code result : Byte) (detail : List Byte) : (s.refusing st code result detail).toSend = s.toSend := rfl
@[simp] theorem refusing_sending (st : Station) (code result : Byte) (detail : List Byte) : (s.refusing st code result detail).sending = s.sending := rfl
@[simp] theorem refusing_strap (st : Station) (code result : Byte) (detail : List Byte) : (s.refusing st code result detail).strap = s.strap := rfl
@[simp] theorem refusing_bus (st : Station) (code result : Byte) (detail : List Byte) : (s.refusing st code result detail).bus = s.bus := rfl
@[simp] theorem refusing_intakes (st : Station) (code result : Byte) (detail : List Byte) : (s.refusing st code result detail).intakes = s.intakes := rfl
@[simp] theorem refusing_masks (st : Station) (code result : Byte) (detail : List Byte) : (s.refusing st code result detail).masks = s.masks := rfl
@[simp] theorem refusing_changed (st : Station) (code result : Byte) (detail : List Byte) : (s.refusing st code result detail).changed = s.changed := rfl
@[simp] theorem refusing_lockout (st : Station) (code result : Byte) (detail : List Byte) : (s.refusing st code result detail).lockout = s.lockout := rfl
@[simp] theorem refusing_nodeId (st : Station) (code result : Byte) (detail : List Byte) : (s.refusing st code result detail).nodeId = s.nodeId := rfl
@[simp] theorem refusing_nodeOpen (st : Station) (code result : Byte) (detail : List Byte) : (s.refusing st code result detail).nodeOpen = s.nodeOpen := rfl
@[simp] theorem refusing_timing (st : Station) (code result : Byte) (detail : List Byte) : (s.refusing st code result detail).timing = s.timing := rfl
@[simp] theorem refusing_alerts (st : Station) (code result : Byte) (detail : List Byte) : (s.refusing st code result detail).alerts = s.alerts := rfl
@[simp] theorem refusing_lastServed (st : Station) (code result : Byte) (detail : List Byte) : (s.refusing st code result detail).lastServed = s.lastServed := rfl
@[simp] theorem refusing_outputs (st : Station) (code result : Byte) (detail : List Byte) : (s.refusing st code result detail).outputs = s.outputs := rfl
@[simp] theorem refusing_pending (st : Station) (code result : Byte) (detail : List Byte) : (s.refusing st code result detail).pending = s.pending := rfl

/-! ### What the updates set -/

@[simp] theorem taken_lastServed (st : Station) : (s.taken st).lastServed = st := rfl
@[simp] theorem busClear_bus : s.busClear.bus = .idle := rfl
@[simp] theorem discardSweep_sweepDiscards : s.discardSweep.sweepDiscards = countUp s.sweepDiscards := rfl
@[simp] theorem unmatched_unmatchedAcks : s.unmatched.unmatchedAcks = countUp s.unmatchedAcks := rfl
@[simp] theorem endRecord_endedList (i : CtxIx) (c : Context) (e : Ending) :
    (s.endRecord i c e).endedList = s.endedList ++ [i] := rfl
@[simp] theorem forget_endedList (i : CtxIx) : (s.forget i).endedList = s.endedList.erase i := rfl
@[simp] theorem create_endedList (i : CtxIx) (c : Context) (st : CtxState) :
    (s.create i c st).endedList = s.endedList.erase i := rfl

end State

end Sys2Proof.Machine
end

