-- ==== Sys2Proof/Laws/Ops.lean ====
section
/-! SUPPORT. What each shared operation does, said once: vectors, counters, maps, records, links and settings. -/

namespace Sys2Proof.Machine

/-! ## Collections and counters -/

/-- The entries of a vector with one replaced. The indices are written as numbers, the form simp keeps them in. -/
theorem put_get {α : Type} {n : Nat} (v : Vector α n) (i j : Fin n) (x : α) :
    (put v i x)[j.val] = if i = j then x else v[j.val] := by
  simp only [put, Vector.getElem_set, Fin.ext_iff]

@[simp] theorem put_get_self {α : Type} {n : Nat} (v : Vector α n) (i : Fin n) (x : α) : (put v i x)[i.val] = x := by
  rw [put_get, if_pos rfl]

theorem put_get_ne {α : Type} {n : Nat} (v : Vector α n) {i j : Fin n} (x : α) (h : i ≠ j) :
    (put v i x)[j.val] = v[j.val] := by
  rw [put_get, if_neg h]

@[simp] theorem mapAll_get {α β : Type} {n : Nat} (f : α → β) (v : Vector α n) (i : Fin n) :
    (mapAll f v)[i.val] = f v[i.val] := by
  simp [mapAll, Vector.getElem_toList]

theorem countUp_le (n : Nat) (h : n ≤ 65535) : countUp n ≤ 65535 := by unfold countUp; split <;> omega

theorem countUpBy_le (k n : Nat) (h : n ≤ 65535) : countUpBy k n ≤ 65535 := by
  induction k generalizing n with
  | zero => exact h
  | succ k ih => exact ih _ (countUp_le n h)

theorem countUpBy_eq (k n : Nat) (h : n ≤ 65535) : countUpBy k n = min 65535 (n + k) := by
  induction k generalizing n with
  | zero => simp only [countUpBy]; omega
  | succ k ih =>
    rw [countUpBy, ih _ (countUp_le n h)]
    unfold countUp; split <;> omega

namespace State

variable (s : State)

/-! ## Points, links, records -/

theorem modPoint_point (p q : PointIx) (f : Point → Point) :
    (s.modPoint p f).point q = if p = q then f (s.point p) else s.point q := by
  simp only [State.point, State.modPoint, Fin.getElem_fin, put_get]

@[simp] theorem modPoint_point_self (p : PointIx) (f : Point → Point) : (s.modPoint p f).point p = f (s.point p) := by
  simp [modPoint_point]

theorem modLink_link (d e : Degree) (f : Link → Link) :
    (s.modLink d f).link e = if d = e then f (s.link d) else s.link e := by
  simp only [State.link, State.modLink, Fin.getElem_fin, put_get]

@[simp] theorem modLink_link_self (d : Degree) (f : Link → Link) : (s.modLink d f).link d = f (s.link d) := by
  simp [modLink_link]

theorem setContext_context (i j : CtxIx) (c : Option Context) :
    (s.setContext i c).context j = if i = j then c else s.context j := by
  simp only [State.context, State.setContext, Fin.getElem_fin, put_get]

@[simp] theorem setContext_context_self (i : CtxIx) (c : Option Context) : (s.setContext i c).context i = c := by
  simp [setContext_context]

@[simp] theorem mapContexts_context (f : Context → Context) (j : CtxIx) :
    (s.mapContexts f).context j = (s.context j).map f := by
  simp [State.context, State.mapContexts]

theorem enter_context (i j : CtxIx) (c : Context) (st : CtxState) :
    (s.enter i c st).context j =
      if i = j then some { c with state := st, watchTimer := watchLoad s.timing c st } else s.context j := by
  exact s.setContext_context i j _

@[simp] theorem forget_context (i j : CtxIx) : (s.forget i).context j = s.context j := rfl

theorem create_context (i j : CtxIx) (c : Context) (st : CtxState) :
    (s.create i c st).context j =
      if i = j then some { c with state := st, watchTimer := watchLoad s.timing c st } else s.context j :=
  (s.forget i).enter_context i j c st

theorem endRecord_context (i j : CtxIx) (c : Context) (e : Ending) :
    (s.endRecord i c e).context j =
      if i = j then some { c with
        charge := none, lastMeasured := none, reference := none, abortPending := none, ending := some e
        state := .ended, watchTimer := none } else s.context j :=
  s.enter_context i j _ .ended

/-! ## Changed sets -/

theorem markChanged_get (v : Vector (Vector Bool 48) 9) (o st : Station) (i j : CtxIx) :
    (markChanged v o i)[st][j] = (decide (o = st ∧ i = j) || v[st][j]) := by
  simp only [markChanged, Fin.getElem_fin, put_get]
  by_cases h : o = st
  · subst h; by_cases k : i = j <;> simp [put_get, k]
  · simp [h]

/-- What a notification adds (R32): the index, to the owner's set and to station 0's. -/
theorem notify_changed (i j : CtxIx) (o st : Station) :
    (s.notify i o).changed[st][j] = (decide ((o = st ∨ st = 0) ∧ i = j) || s.changed[st][j]) := by
  simp only [State.notify, markChanged_get]
  by_cases h : o = st <;> by_cases k : i = j <;> by_cases z : st = 0 <;> simp [h, k, z, eq_comm]

theorem enter_changed (i j : CtxIx) (c : Context) (x : CtxState) (st : Station) :
    (s.enter i c x).changed[st][j] = (decide ((c.owner = st ∨ st = 0) ∧ i = j) || s.changed[st][j]) :=
  notify_changed _ i j c.owner st

/-- What leaves with a record that is withdrawn (R28, R31): its index, from every set. -/
theorem forget_changed (i j : CtxIx) (st : Station) :
    (s.forget i).changed[st][j] = (!decide (i = j) && s.changed[st][j]) := by
  simp only [State.forget, Fin.getElem_fin, mapAll_get, put_get]
  by_cases k : i = j <;> simp [k]

/-- What a creation leaves in a changed set (R28, R32): the notice of the creation alone. -/
theorem create_changed (i j : CtxIx) (c : Context) (x : CtxState) (st : Station) :
    (s.create i c x).changed[st][j] = if i = j then decide (st = 0 ∨ c.owner = st) else s.changed[st][j] := by
  simp only [State.create, enter_changed, forget_changed]
  by_cases h : i = j <;> simp [h, or_comm]

/-! ## Slot maps -/

end State

theorem paint_getElem (f : Slot → Slot) (r : Run) (k j : Nat) (l : List Slot) (h : j < (paint f r k l).length) :
    (paint f r k l)[j] = if r.covers (k + j) then f (l[j]'(by rwa [length_paint] at h)) else
      l[j]'(by rwa [length_paint] at h) := by
  induction l generalizing k j with
  | nil => simp [paint] at h
  | cons x xs ih =>
    cases j with
    | zero => simp [paint]
    | succ j =>
      simp only [paint, List.getElem_cons_succ]
      rw [ih (k + 1) j (by simpa [paint] using h)]
      simp [Nat.add_comm, Nat.add_left_comm]

theorem paintMap_get (f : Slot → Slot) (r : Run) (m : Vector Slot 384) (k : Nat) (h : k < 384) :
    (paintMap f r m)[k] = if r.covers k then f m[k] else m[k] := by
  simp only [paintMap, Vector.getElem_mk, List.getElem_toArray, paint_getElem, Nat.zero_add, Vector.getElem_toList]

namespace State

variable (s : State)

theorem slotAt_of_lt (m : MapIx) {k : Nat} (h : k < 384) : s.slotAt m k = (s.maps[m])[k] := by
  simp [State.slotAt, h]

/-- What changing the entries of a run of one map does to each slot of each map. -/
theorem changeRun_slotAt (f : Slot → Slot) (r : Run) (m n : MapIx) {k : Nat} (h : k < 384) :
    (s.changeRun f r m).slotAt n k =
      if m = n ∧ r.covers k = true then f (s.slotAt n k) else s.slotAt n k := by
  rw [slotAt_of_lt _ _ h, slotAt_of_lt _ _ h]
  simp only [State.changeRun, Fin.getElem_fin, put_get]
  by_cases e : m = n
  · subst e; simp [paintMap_get]
  · simp [e]

/-- What writing a run on maps does to each slot of each map (R4). -/
theorem writeRun_slotAt (ms : List MapIx) (r : Run) (x : Slot) (n : MapIx) {k : Nat} (h : k < 384) :
    (s.writeRun ms r x).slotAt n k = if n ∈ ms ∧ r.covers k = true then x else s.slotAt n k := by
  induction ms generalizing s with
  | nil => simp [State.writeRun]
  | cons m ms ih =>
    have e : s.writeRun (m :: ms) r x = (s.changeRun (fun _ => x) r m).writeRun ms r x := rfl
    rw [e, ih, changeRun_slotAt _ _ _ _ _ h]
    by_cases b : m = n
    · subst b; by_cases a : m ∈ ms <;> by_cases c : r.covers k = true <;> simp [a, c]
    · simp [b, Ne.symm b]

/-- Writing a run changes the maps alone. -/
theorem writeRun_eq (ms : List MapIx) (r : Run) (x : Slot) :
    s.writeRun ms r x = { s with maps := (s.writeRun ms r x).maps } := by
  induction ms generalizing s with
  | nil => rfl
  | cons m ms ih =>
    have e : s.writeRun (m :: ms) r x = (s.changeRun (fun _ => x) r m).writeRun ms r x := rfl
    rw [e, ih]; rfl

theorem mem_slots (r : Run) (k : Nat) : k ∈ r.slots ↔ r.covers k = true := by
  simp [Run.slots, Run.covers, List.mem_range'_1]

/-- A claim succeeds exactly where every slot of the run is FREE on every named map (R5). -/
theorem conflict_eq_none (ms : List MapIx) (r : Run) :
    s.conflict ms r = none ↔ ∀ k, r.covers k = true → ∀ m ∈ ms, s.slotAt m k = .free := by
  simp only [State.conflict, List.findSome?_eq_none_iff, mem_slots, Option.map_eq_none_iff, List.find?_eq_none]
  simp

/-- The occupancy test passes exactly where no slot of the range is HELD or LIT (R14). -/
theorem occupancy_eq_none (m : MapIx) (r : Run) :
    s.occupancy m r = none ↔ ∀ k, r.covers k = true → (s.slotAt m k).occupied = false := by
  simp only [State.occupancy, List.find?_eq_none, mem_slots]
  simp

/-! ## The context table -/

theorem findLive_some {id : Word32} {i : CtxIx} {c : Context} (h : s.findLive id = some (i, c)) :
    s.context i = some c ∧ c.live = true ∧ c.lightpathId = id := by
  obtain ⟨j, -, hj⟩ := List.exists_of_findSome?_eq_some h
  split at hj
  · split at hj
    · simp only [Option.some.injEq, Prod.mk.injEq] at hj
      obtain ⟨rfl, rfl⟩ := hj
      simp_all
    · simp at hj
  · simp at hj

theorem findLive_none {id : Word32} (h : s.findLive id = none) (i : CtxIx) (c : Context) (hc : s.context i = some c)
    (hl : c.live = true) : c.lightpathId ≠ id := by
  have := List.findSome?_eq_none_iff.1 h i (List.mem_finRange i)
  simp only [hc] at this
  intro e
  simp [hl, e] at this

/-- The record a creation chooses (R26): a FREE one, the lowest, or the head of the ended list. -/
theorem chooseRecord_some {i : CtxIx} (h : s.chooseRecord = some i) :
    (s.context i = none ∧ ∀ j < i, s.context j ≠ none) ∨
      ((∀ j, s.context j ≠ none) ∧ s.endedList.head? = some i) := by
  unfold State.chooseRecord at h
  split at h
  · rename_i k hk
    cases h
    left
    have := List.find?_some hk
    refine ⟨by simpa using this, fun j hj hn => ?_⟩
    obtain ⟨-, as, bs, e, hb⟩ := List.find?_eq_some_iff_append.1 hk
    have hm : j ∈ as := by
      have hmem : j ∈ as ++ i :: bs := e ▸ List.mem_finRange j
      rcases List.mem_append.1 hmem with hm | hm
      · exact hm
      · exfalso
        have hs : (as ++ i :: bs).Pairwise (· < ·) := by rw [← e]; exact List.pairwise_lt_finRange 48
        have hp := (List.pairwise_append.1 hs).2.1
        rcases List.mem_cons.1 hm with rfl | hm
        · exact absurd hj (lt_irrefl _)
        · exact absurd ((List.pairwise_cons.1 hp).1 j hm) (not_lt.2 hj.le)
    simpa [hn] using hb j hm
  · rename_i hk
    right
    refine ⟨fun j => ?_, h⟩
    have := List.find?_eq_none.1 hk j (List.mem_finRange j)
    simpa using this

/-! ## Charges -/

/-- A discharge changes the points alone (R53). -/
theorem discharge_eq (c : Context) : s.discharge c = { s with points := (s.discharge c).points } := by
  unfold State.discharge; split <;> rfl

theorem discharge_point (c : Context) (p : PointIx) :
    (s.discharge c).point p =
      if c.point = p then { s.point p with load := (s.point p).load - c.charge.getD 0 } else s.point p := by
  unfold State.discharge
  split
  · rename_i q hq
    by_cases h : c.point = p
    · subst h; simp [hq]
    · simp [modPoint_point, h]
  · rename_i hq
    by_cases h : c.point = p <;> simp [hq, h]

/-! ## Frames and settings -/

/-- The offer of a frame touches one link (R132). -/
theorem offer_link (d e : Degree) (n : Word32) (b : FrameBody) :
    (s.offer d n b).link e = if d = e then (s.link d).offer ⟨s.nodeId, n, b⟩ else s.link e :=
  s.modLink_link d e _

theorem offerTo_eq (d : Option Degree) (n : Word32) (b : FrameBody) :
    s.offerTo d n b = { s with links := (s.offerTo d n b).links } := by
  unfold State.offerTo; split <;> rfl

theorem offerAborts_eq (c : Context) (o : Cause) (n : Word16) :
    s.offerAborts c o n = { s with links := (s.offerAborts c o n).links } := by
  unfold State.offerAborts; rw [offerTo_eq, offerTo_eq s]

theorem offerSetting_outstanding (p q : PointIx) (r : Run) (b : SettingBody) :
    (s.offerSetting p r b).outstanding[q] =
      if p = q then some ⟨firstFreeTag s.tagHeld 16 s.nextTag, b.kind, s.timing.actuatorWait⟩ else s.outstanding[q] := by
  simp only [State.offerSetting, Fin.getElem_fin, put_get]

end State

/-- What the search for a tag answers (R143): a value that is not held, or, past `n` values that all are, the one after them. -/
theorem firstFreeTag_spec (held : Byte → Bool) (n : Nat) (t : Byte) :
    (∃ k < n, firstFreeTag held n t = t + BitVec.ofNat 8 k ∧ held (t + BitVec.ofNat 8 k) = false ∧
      ∀ j < k, held (t + BitVec.ofNat 8 j) = true) ∨
    (firstFreeTag held n t = t + BitVec.ofNat 8 n ∧ ∀ j < n, held (t + BitVec.ofNat 8 j) = true) := by
  induction n generalizing t with
  | zero => right; simp [firstFreeTag]
  | succ n ih =>
    have step (j : Nat) : t + 1 + BitVec.ofNat 8 j = t + BitVec.ofNat 8 (j + 1) := by
      rw [BitVec.add_assoc]; congr 1; apply BitVec.eq_of_toNat_eq; simp; omega
    by_cases h : held t = true
    · have e : firstFreeTag held (n + 1) t = firstFreeTag held n (t + 1) := by simp [firstFreeTag, h]
      have zero : ∀ j, (j = 0 → held (t + BitVec.ofNat 8 j) = true) := by rintro _ rfl; simpa using h
      rw [e]
      rcases ih (t + 1) with ⟨k, hk, e1, e2, e3⟩ | ⟨e1, e2⟩
      · left
        refine ⟨k + 1, by omega, by rw [e1, step], by rw [← step]; exact e2, fun j hj => ?_⟩
        cases j with
        | zero => exact zero 0 rfl
        | succ j => rw [← step]; exact e3 j (by omega)
      · right
        refine ⟨by rw [e1, step], fun j hj => ?_⟩
        cases j with
        | zero => exact zero 0 rfl
        | succ j => rw [← step]; exact e2 j (by omega)
    · left
      exact ⟨0, by omega, by simp [firstFreeTag, h], by simpa using h, by omega⟩

/-! ## Slot readings (R43) -/

/-- What a reading counts for in its group. -/
theorem readingOf_linear (w : Word16) :
    (readingOf w).linear = if w = 0x8000#16 ∨ w.toInt < -400 then 0 else forward (min 250 w.toInt) := by
  unfold readingOf
  by_cases h1 : w = 0x8000#16
  · simp [h1, Reading.linear]
  · by_cases h2 : w.toInt < -400
    · simp [h1, h2, Reading.linear]
    · by_cases h3 : 250 < w.toInt
      · have : min 250 w.toInt = 250 := by omega
        simp [h1, h2, h3, Reading.linear, this]
      · have : min 250 w.toInt = w.toInt := by omega
        simp [h1, h2, h3, Reading.linear, this]

/-- When a reading marks its group saturated. -/
theorem readingOf_clamped (w : Word16) : (readingOf w).clamped = decide (250 < w.toInt) := by
  unfold readingOf
  by_cases h1 : w = 0x8000#16
  · subst h1; decide
  · by_cases h2 : w.toInt < -400
    · have : ¬250 < w.toInt := by omega
      simp [h1, h2, Reading.clamped, this]
    · by_cases h3 : 250 < w.toInt <;> simp [h1, h2, h3, Reading.clamped]

end Sys2Proof.Machine
end

