-- ==== Sys2Proof/Laws/Engine.lean ====
section
/-! SUPPORT. What the point engines leave alone: whatever a turn, an admission, an outcome or an ending does, it touches neither the
shelf bus nor the node configuration. -/

namespace Sys2Proof.Machine

/-! ## Operations that branch, field by field -/

namespace State

variable (s : State)

@[simp] theorem writeRun_contexts (ms : List MapIx) (r : Run) (x : Slot) : (s.writeRun ms r x).contexts = s.contexts := by
  rw [writeRun_eq]
@[simp] theorem writeRun_endedList (ms : List MapIx) (r : Run) (x : Slot) : (s.writeRun ms r x).endedList = s.endedList := by
  rw [writeRun_eq]
@[simp] theorem writeRun_points (ms : List MapIx) (r : Run) (x : Slot) : (s.writeRun ms r x).points = s.points := by
  rw [writeRun_eq]
@[simp] theorem writeRun_links (ms : List MapIx) (r : Run) (x : Slot) : (s.writeRun ms r x).links = s.links := by
  rw [writeRun_eq]
@[simp] theorem writeRun_sweepDiscards (ms : List MapIx) (r : Run) (x : Slot) : (s.writeRun ms r x).sweepDiscards = s.sweepDiscards := by
  rw [writeRun_eq]
@[simp] theorem writeRun_outstanding (ms : List MapIx) (r : Run) (x : Slot) : (s.writeRun ms r x).outstanding = s.outstanding := by
  rw [writeRun_eq]
@[simp] theorem writeRun_nextTag (ms : List MapIx) (r : Run) (x : Slot) : (s.writeRun ms r x).nextTag = s.nextTag := by
  rw [writeRun_eq]
@[simp] theorem writeRun_unmatchedAcks (ms : List MapIx) (r : Run) (x : Slot) : (s.writeRun ms r x).unmatchedAcks = s.unmatchedAcks := by
  rw [writeRun_eq]
@[simp] theorem writeRun_toSend (ms : List MapIx) (r : Run) (x : Slot) : (s.writeRun ms r x).toSend = s.toSend := by
  rw [writeRun_eq]
@[simp] theorem writeRun_sending (ms : List MapIx) (r : Run) (x : Slot) : (s.writeRun ms r x).sending = s.sending := by
  rw [writeRun_eq]
@[simp] theorem writeRun_strap (ms : List MapIx) (r : Run) (x : Slot) : (s.writeRun ms r x).strap = s.strap := by
  rw [writeRun_eq]
@[simp] theorem writeRun_bus (ms : List MapIx) (r : Run) (x : Slot) : (s.writeRun ms r x).bus = s.bus := by
  rw [writeRun_eq]
@[simp] theorem writeRun_intakes (ms : List MapIx) (r : Run) (x : Slot) : (s.writeRun ms r x).intakes = s.intakes := by
  rw [writeRun_eq]
@[simp] theorem writeRun_holders (ms : List MapIx) (r : Run) (x : Slot) : (s.writeRun ms r x).holders = s.holders := by
  rw [writeRun_eq]
@[simp] theorem writeRun_masks (ms : List MapIx) (r : Run) (x : Slot) : (s.writeRun ms r x).masks = s.masks := by
  rw [writeRun_eq]
@[simp] theorem writeRun_changed (ms : List MapIx) (r : Run) (x : Slot) : (s.writeRun ms r x).changed = s.changed := by
  rw [writeRun_eq]
@[simp] theorem writeRun_lockout (ms : List MapIx) (r : Run) (x : Slot) : (s.writeRun ms r x).lockout = s.lockout := by
  rw [writeRun_eq]
@[simp] theorem writeRun_nodeId (ms : List MapIx) (r : Run) (x : Slot) : (s.writeRun ms r x).nodeId = s.nodeId := by
  rw [writeRun_eq]
@[simp] theorem writeRun_nodeOpen (ms : List MapIx) (r : Run) (x : Slot) : (s.writeRun ms r x).nodeOpen = s.nodeOpen := by
  rw [writeRun_eq]
@[simp] theorem writeRun_timing (ms : List MapIx) (r : Run) (x : Slot) : (s.writeRun ms r x).timing = s.timing := by
  rw [writeRun_eq]
@[simp] theorem writeRun_alerts (ms : List MapIx) (r : Run) (x : Slot) : (s.writeRun ms r x).alerts = s.alerts := by
  rw [writeRun_eq]
@[simp] theorem writeRun_lastServed (ms : List MapIx) (r : Run) (x : Slot) : (s.writeRun ms r x).lastServed = s.lastServed := by
  rw [writeRun_eq]
@[simp] theorem writeRun_outputs (ms : List MapIx) (r : Run) (x : Slot) : (s.writeRun ms r x).outputs = s.outputs := by
  rw [writeRun_eq]
@[simp] theorem writeRun_pending (ms : List MapIx) (r : Run) (x : Slot) : (s.writeRun ms r x).pending = s.pending := by
  rw [writeRun_eq]

@[simp] theorem discharge_maps (c : Context) : (s.discharge c).maps = s.maps := by
  rw [discharge_eq]
@[simp] theorem discharge_contexts (c : Context) : (s.discharge c).contexts = s.contexts := by
  rw [discharge_eq]
@[simp] theorem discharge_endedList (c : Context) : (s.discharge c).endedList = s.endedList := by
  rw [discharge_eq]
@[simp] theorem discharge_links (c : Context) : (s.discharge c).links = s.links := by
  rw [discharge_eq]
@[simp] theorem discharge_sweepDiscards (c : Context) : (s.discharge c).sweepDiscards = s.sweepDiscards := by
  rw [discharge_eq]
@[simp] theorem discharge_outstanding (c : Context) : (s.discharge c).outstanding = s.outstanding := by
  rw [discharge_eq]
@[simp] theorem discharge_nextTag (c : Context) : (s.discharge c).nextTag = s.nextTag := by
  rw [discharge_eq]
@[simp] theorem discharge_unmatchedAcks (c : Context) : (s.discharge c).unmatchedAcks = s.unmatchedAcks := by
  rw [discharge_eq]
@[simp] theorem discharge_toSend (c : Context) : (s.discharge c).toSend = s.toSend := by
  rw [discharge_eq]
@[simp] theorem discharge_sending (c : Context) : (s.discharge c).sending = s.sending := by
  rw [discharge_eq]
@[simp] theorem discharge_strap (c : Context) : (s.discharge c).strap = s.strap := by
  rw [discharge_eq]
@[simp] theorem discharge_bus (c : Context) : (s.discharge c).bus = s.bus := by
  rw [discharge_eq]
@[simp] theorem discharge_intakes (c : Context) : (s.discharge c).intakes = s.intakes := by
  rw [discharge_eq]
@[simp] theorem discharge_holders (c : Context) : (s.discharge c).holders = s.holders := by
  rw [discharge_eq]
@[simp] theorem discharge_masks (c : Context) : (s.discharge c).masks = s.masks := by
  rw [discharge_eq]
@[simp] theorem discharge_changed (c : Context) : (s.discharge c).changed = s.changed := by
  rw [discharge_eq]
@[simp] theorem discharge_lockout (c : Context) : (s.discharge c).lockout = s.lockout := by
  rw [discharge_eq]
@[simp] theorem discharge_nodeId (c : Context) : (s.discharge c).nodeId = s.nodeId := by
  rw [discharge_eq]
@[simp] theorem discharge_nodeOpen (c : Context) : (s.discharge c).nodeOpen = s.nodeOpen := by
  rw [discharge_eq]
@[simp] theorem discharge_timing (c : Context) : (s.discharge c).timing = s.timing := by
  rw [discharge_eq]
@[simp] theorem discharge_alerts (c : Context) : (s.discharge c).alerts = s.alerts := by
  rw [discharge_eq]
@[simp] theorem discharge_lastServed (c : Context) : (s.discharge c).lastServed = s.lastServed := by
  rw [discharge_eq]
@[simp] theorem discharge_outputs (c : Context) : (s.discharge c).outputs = s.outputs := by
  rw [discharge_eq]
@[simp] theorem discharge_pending (c : Context) : (s.discharge c).pending = s.pending := by
  rw [discharge_eq]

@[simp] theorem offerTo_maps (d : Option Degree) (n : Word32) (b : FrameBody) : (s.offerTo d n b).maps = s.maps := by
  rw [offerTo_eq]
@[simp] theorem offerTo_contexts (d : Option Degree) (n : Word32) (b : FrameBody) : (s.offerTo d n b).contexts = s.contexts := by
  rw [offerTo_eq]
@[simp] theorem offerTo_endedList (d : Option Degree) (n : Word32) (b : FrameBody) : (s.offerTo d n b).endedList = s.endedList := by
  rw [offerTo_eq]
@[simp] theorem offerTo_points (d : Option Degree) (n : Word32) (b : FrameBody) : (s.offerTo d n b).points = s.points := by
  rw [offerTo_eq]
@[simp] theorem offerTo_sweepDiscards (d : Option Degree) (n : Word32) (b : FrameBody) : (s.offerTo d n b).sweepDiscards = s.sweepDiscards := by
  rw [offerTo_eq]
@[simp] theorem offerTo_outstanding (d : Option Degree) (n : Word32) (b : FrameBody) : (s.offerTo d n b).outstanding = s.outstanding := by
  rw [offerTo_eq]
@[simp] theorem offerTo_nextTag (d : Option Degree) (n : Word32) (b : FrameBody) : (s.offerTo d n b).nextTag = s.nextTag := by
  rw [offerTo_eq]
@[simp] theorem offerTo_unmatchedAcks (d : Option Degree) (n : Word32) (b : FrameBody) : (s.offerTo d n b).unmatchedAcks = s.unmatchedAcks := by
  rw [offerTo_eq]
@[simp] theorem offerTo_toSend (d : Option Degree) (n : Word32) (b : FrameBody) : (s.offerTo d n b).toSend = s.toSend := by
  rw [offerTo_eq]
@[simp] theorem offerTo_sending (d : Option Degree) (n : Word32) (b : FrameBody) : (s.offerTo d n b).sending = s.sending := by
  rw [offerTo_eq]
@[simp] theorem offerTo_strap (d : Option Degree) (n : Word32) (b : FrameBody) : (s.offerTo d n b).strap = s.strap := by
  rw [offerTo_eq]
@[simp] theorem offerTo_bus (d : Option Degree) (n : Word32) (b : FrameBody) : (s.offerTo d n b).bus = s.bus := by
  rw [offerTo_eq]
@[simp] theorem offerTo_intakes (d : Option Degree) (n : Word32) (b : FrameBody) : (s.offerTo d n b).intakes = s.intakes := by
  rw [offerTo_eq]
@[simp] theorem offerTo_holders (d : Option Degree) (n : Word32) (b : FrameBody) : (s.offerTo d n b).holders = s.holders := by
  rw [offerTo_eq]
@[simp] theorem offerTo_masks (d : Option Degree) (n : Word32) (b : FrameBody) : (s.offerTo d n b).masks = s.masks := by
  rw [offerTo_eq]
@[simp] theorem offerTo_changed (d : Option Degree) (n : Word32) (b : FrameBody) : (s.offerTo d n b).changed = s.changed := by
  rw [offerTo_eq]
@[simp] theorem offerTo_lockout (d : Option Degree) (n : Word32) (b : FrameBody) : (s.offerTo d n b).lockout = s.lockout := by
  rw [offerTo_eq]
@[simp] theorem offerTo_nodeId (d : Option Degree) (n : Word32) (b : FrameBody) : (s.offerTo d n b).nodeId = s.nodeId := by
  rw [offerTo_eq]
@[simp] theorem offerTo_nodeOpen (d : Option Degree) (n : Word32) (b : FrameBody) : (s.offerTo d n b).nodeOpen = s.nodeOpen := by
  rw [offerTo_eq]
@[simp] theorem offerTo_timing (d : Option Degree) (n : Word32) (b : FrameBody) : (s.offerTo d n b).timing = s.timing := by
  rw [offerTo_eq]
@[simp] theorem offerTo_alerts (d : Option Degree) (n : Word32) (b : FrameBody) : (s.offerTo d n b).alerts = s.alerts := by
  rw [offerTo_eq]
@[simp] theorem offerTo_lastServed (d : Option Degree) (n : Word32) (b : FrameBody) : (s.offerTo d n b).lastServed = s.lastServed := by
  rw [offerTo_eq]
@[simp] theorem offerTo_outputs (d : Option Degree) (n : Word32) (b : FrameBody) : (s.offerTo d n b).outputs = s.outputs := by
  rw [offerTo_eq]
@[simp] theorem offerTo_pending (d : Option Degree) (n : Word32) (b : FrameBody) : (s.offerTo d n b).pending = s.pending := by
  rw [offerTo_eq]

@[simp] theorem offerAborts_maps (c : Context) (o : Cause) (n : Word16) : (s.offerAborts c o n).maps = s.maps := by
  rw [offerAborts_eq]
@[simp] theorem offerAborts_contexts (c : Context) (o : Cause) (n : Word16) : (s.offerAborts c o n).contexts = s.contexts := by
  rw [offerAborts_eq]
@[simp] theorem offerAborts_endedList (c : Context) (o : Cause) (n : Word16) : (s.offerAborts c o n).endedList = s.endedList := by
  rw [offerAborts_eq]
@[simp] theorem offerAborts_points (c : Context) (o : Cause) (n : Word16) : (s.offerAborts c o n).points = s.points := by
  rw [offerAborts_eq]
@[simp] theorem offerAborts_sweepDiscards (c : Context) (o : Cause) (n : Word16) : (s.offerAborts c o n).sweepDiscards = s.sweepDiscards := by
  rw [offerAborts_eq]
@[simp] theorem offerAborts_outstanding (c : Context) (o : Cause) (n : Word16) : (s.offerAborts c o n).outstanding = s.outstanding := by
  rw [offerAborts_eq]
@[simp] theorem offerAborts_nextTag (c : Context) (o : Cause) (n : Word16) : (s.offerAborts c o n).nextTag = s.nextTag := by
  rw [offerAborts_eq]
@[simp] theorem offerAborts_unmatchedAcks (c : Context) (o : Cause) (n : Word16) : (s.offerAborts c o n).unmatchedAcks = s.unmatchedAcks := by
  rw [offerAborts_eq]
@[simp] theorem offerAborts_toSend (c : Context) (o : Cause) (n : Word16) : (s.offerAborts c o n).toSend = s.toSend := by
  rw [offerAborts_eq]
@[simp] theorem offerAborts_sending (c : Context) (o : Cause) (n : Word16) : (s.offerAborts c o n).sending = s.sending := by
  rw [offerAborts_eq]
@[simp] theorem offerAborts_strap (c : Context) (o : Cause) (n : Word16) : (s.offerAborts c o n).strap = s.strap := by
  rw [offerAborts_eq]
@[simp] theorem offerAborts_bus (c : Context) (o : Cause) (n : Word16) : (s.offerAborts c o n).bus = s.bus := by
  rw [offerAborts_eq]
@[simp] theorem offerAborts_intakes (c : Context) (o : Cause) (n : Word16) : (s.offerAborts c o n).intakes = s.intakes := by
  rw [offerAborts_eq]
@[simp] theorem offerAborts_holders (c : Context) (o : Cause) (n : Word16) : (s.offerAborts c o n).holders = s.holders := by
  rw [offerAborts_eq]
@[simp] theorem offerAborts_masks (c : Context) (o : Cause) (n : Word16) : (s.offerAborts c o n).masks = s.masks := by
  rw [offerAborts_eq]
@[simp] theorem offerAborts_changed (c : Context) (o : Cause) (n : Word16) : (s.offerAborts c o n).changed = s.changed := by
  rw [offerAborts_eq]
@[simp] theorem offerAborts_lockout (c : Context) (o : Cause) (n : Word16) : (s.offerAborts c o n).lockout = s.lockout := by
  rw [offerAborts_eq]
@[simp] theorem offerAborts_nodeId (c : Context) (o : Cause) (n : Word16) : (s.offerAborts c o n).nodeId = s.nodeId := by
  rw [offerAborts_eq]
@[simp] theorem offerAborts_nodeOpen (c : Context) (o : Cause) (n : Word16) : (s.offerAborts c o n).nodeOpen = s.nodeOpen := by
  rw [offerAborts_eq]
@[simp] theorem offerAborts_timing (c : Context) (o : Cause) (n : Word16) : (s.offerAborts c o n).timing = s.timing := by
  rw [offerAborts_eq]
@[simp] theorem offerAborts_alerts (c : Context) (o : Cause) (n : Word16) : (s.offerAborts c o n).alerts = s.alerts := by
  rw [offerAborts_eq]
@[simp] theorem offerAborts_lastServed (c : Context) (o : Cause) (n : Word16) : (s.offerAborts c o n).lastServed = s.lastServed := by
  rw [offerAborts_eq]
@[simp] theorem offerAborts_outputs (c : Context) (o : Cause) (n : Word16) : (s.offerAborts c o n).outputs = s.outputs := by
  rw [offerAborts_eq]
@[simp] theorem offerAborts_pending (c : Context) (o : Cause) (n : Word16) : (s.offerAborts c o n).pending = s.pending := by
  rw [offerAborts_eq]

end State
/-! ## The frame of a point engine -/

/-- Two states agree on the shelf bus, the node configuration but for the alerts, the port counts and what lies outside the part. -/
structure OutsideSame (s t : State) : Prop where
  sweepDiscards : t.sweepDiscards = s.sweepDiscards
  unmatchedAcks : t.unmatchedAcks = s.unmatchedAcks
  sending : t.sending = s.sending
  strap : t.strap = s.strap
  bus : t.bus = s.bus
  intakes : t.intakes = s.intakes
  holders : t.holders = s.holders
  masks : t.masks = s.masks
  lockout : t.lockout = s.lockout
  nodeId : t.nodeId = s.nodeId
  nodeOpen : t.nodeOpen = s.nodeOpen
  timing : t.timing = s.timing
  lastServed : t.lastServed = s.lastServed
  outputs : t.outputs = s.outputs
  pending : t.pending = s.pending

namespace OutsideSame

theorem refl (s : State) : OutsideSame s s := by constructor <;> rfl

theorem trans {s t u : State} (h : OutsideSame s t) (k : OutsideSame t u) : OutsideSame s u := by
  constructor
  · exact k.sweepDiscards.trans h.sweepDiscards
  · exact k.unmatchedAcks.trans h.unmatchedAcks
  · exact k.sending.trans h.sending
  · exact k.strap.trans h.strap
  · exact k.bus.trans h.bus
  · exact k.intakes.trans h.intakes
  · exact k.holders.trans h.holders
  · exact k.masks.trans h.masks
  · exact k.lockout.trans h.lockout
  · exact k.nodeId.trans h.nodeId
  · exact k.nodeOpen.trans h.nodeOpen
  · exact k.timing.trans h.timing
  · exact k.lastServed.trans h.lastServed
  · exact k.outputs.trans h.outputs
  · exact k.pending.trans h.pending

variable (s : State)

theorem modPoint (p : PointIx) (f : Point → Point) : OutsideSame s (s.modPoint p f) := by constructor <;> rfl

theorem setContext (i : CtxIx) (c : Option Context) : OutsideSame s (s.setContext i c) := by constructor <;> rfl

theorem mapContexts (f : Context → Context) : OutsideSame s (s.mapContexts f) := by constructor <;> rfl

theorem enter (i : CtxIx) (c : Context) (x : CtxState) : OutsideSame s (s.enter i c x) := by constructor <;> rfl

theorem endRecord (i : CtxIx) (c : Context) (e : Ending) : OutsideSame s (s.endRecord i c e) := by constructor <;> rfl

theorem create (i : CtxIx) (c : Context) (x : CtxState) : OutsideSame s (s.create i c x) := by constructor <;> rfl

theorem offer (d : Degree) (n : Word32) (b : FrameBody) : OutsideSame s (s.offer d n b) := by constructor <;> rfl

theorem offerTo (d : Option Degree) (n : Word32) (b : FrameBody) : OutsideSame s (s.offerTo d n b) := by
  constructor <;> simp

theorem offerAborts (c : Context) (o : Cause) (n : Word16) : OutsideSame s (s.offerAborts c o n) := by
  constructor <;> simp

theorem offerSetting (p : PointIx) (r : Run) (b : SettingBody) : OutsideSame s (s.offerSetting p r b) := by
  constructor <;> rfl

theorem writeRun (ms : List MapIx) (r : Run) (x : Slot) : OutsideSame s (s.writeRun ms r x) := by
  constructor <;> simp

theorem discharge (c : Context) : OutsideSame s (s.discharge c) := by constructor <;> simp

theorem raiseDarkUnconfirmed : OutsideSame s s.raiseDarkUnconfirmed := by constructor <;> rfl

theorem raiseActuator : OutsideSame s s.raiseActuator := by constructor <;> rfl

theorem gradualTurn (p : PointIx) (i : CtxIx) : OutsideSame s (s.gradualTurn p i) := by
  unfold State.gradualTurn; split
  · exact (setContext s _ _).trans (offerSetting _ _ _ _)
  · exact refl s

theorem hardTurn (p : PointIx) (i : CtxIx) : OutsideSame s (s.hardTurn p i) := by
  unfold State.hardTurn; split
  · exact (setContext s _ _).trans (offerSetting _ _ _ _)
  · exact refl s

theorem retireTurn (p : PointIx) (i : CtxIx) (m : Mode) : OutsideSame s (s.retireTurn p i m) := by
  cases m
  · exact gradualTurn s p i
  · exact hardTurn s p i

theorem retireHolder (p : PointIx) (i : CtxIx) (c : Context) (e : Ending) (m : Mode) :
    OutsideSame s (s.retireHolder p i c e m) :=
  ((modPoint s _ _).trans (enter _ _ _ _)).trans (retireTurn _ _ _ _)

theorem rampFault (p : PointIx) (i : CtxIx) (c : Context) (f : Cause) : OutsideSame s (s.rampFault p i c f) :=
  (offerAborts s _ _ _).trans (retireHolder _ _ _ _ _ _)

theorem settleTurn (p : PointIx) (i : CtxIx) (c : Context) : OutsideSame s (s.settleTurn p i c) := by
  have h : OutsideSame s ((s.refreshReferences p).releaseLock p) := (mapContexts s _).trans (modPoint _ _ _)
  unfold State.settleTurn; dsimp only; split
  · exact h.trans (((enter _ _ _ _).trans (writeRun _ _ _ _)).trans (offer _ _ _ _))
  · exact h.trans ((enter _ _ _ _).trans (offer _ _ _ _))
  · exact h.trans ((enter _ _ _ _).trans (offer _ _ _ _))

theorem forwardStep (p : PointIx) (i : CtxIx) (c : Context) (n a : Nat) : OutsideSame s (s.forwardStep p i c n a) :=
  (setContext s _ _).trans (offerSetting _ _ _ _)

theorem serviceTurn (p : PointIx) (r : Run) : OutsideSame s (s.serviceTurn p r) :=
  (modPoint s _ _).trans (offerSetting _ _ _ _)

theorem grantLoop (p : PointIx) (l : List CtxIx) : OutsideSame s (State.grantLoop p l s) := by
  induction l generalizing s with
  | nil => exact refl s
  | cons i rest ih =>
    unfold State.grantLoop
    split
    · exact refl s
    · dsimp only
      have m := modPoint s p fun q => { q with queue := rest, holder := some i }
      split
      · split
        · exact refl s
        · exact m.trans (forwardStep _ _ _ _ _ _)
        · exact m.trans (forwardStep _ _ _ _ _ _)
        · exact (m.trans (settleTurn _ _ _ _)).trans (ih _)
        · exact m.trans (rampFault _ _ _ _ _)
      · exact m.trans (retireTurn _ _ _ _)
      all_goals exact refl s

theorem grant (p : PointIx) : OutsideSame s (s.grant p) := by
  unfold State.grant
  split
  · split
    · exact serviceTurn s _ _
    · exact refl s
    · exact grantLoop s _ _
  · exact refl s

theorem admitOne (p : PointIx) (i : CtxIx) (rest : List CtxIx) (c : Context) :
    OutsideSame s (s.admitOne p i rest c) :=
  (modPoint s _ _).trans (enter _ _ _ _)

theorem admitLoop (p : PointIx) (l : List CtxIx) : OutsideSame s (State.admitLoop p l s) := by
  induction l generalizing s with
  | nil => exact refl s
  | cons i rest ih =>
    unfold State.admitLoop
    split
    · exact refl s
    · split
      · exact (admitOne s _ _ _ _).trans (ih _)
      · exact refl s

theorem attempt (p : PointIx) : OutsideSame s (s.attempt p) := (admitLoop s p _).trans (grant _ p)

theorem joinLine (i : CtxIx) (c : Context) : OutsideSame s (s.joinLine i c) :=
  ((enter s _ _ _).trans (modPoint _ _ _)).trans (attempt _ _)

theorem endNeverLit (i : CtxIx) (c : Context) (e : Ending) : OutsideSame s (s.endNeverLit i c e) := by
  unfold State.endNeverLit; dsimp only
  have h := (((modPoint s c.point fun q => { q with line := q.line.erase i, queue := q.queue.erase i }).trans
    (discharge _ c)).trans (writeRun _ c.sides.mapsUsed c.run .free)).trans (endRecord _ i c e)
  split
  · exact h.trans (attempt _ _)
  · exact h

theorem teardownAtDark (c : Context) (b : Bool) : OutsideSame s (s.teardownAtDark c b) := by
  unfold State.teardownAtDark; split
  · exact offer s _ _ _
  · exact refl s

theorem dark (p : PointIx) (i : CtxIx) (c : Context) : OutsideSame s (s.dark p i c) := by
  unfold State.dark; split
  · exact ((((((discharge s c).trans (modPoint _ _ _)).trans (writeRun _ _ _ _)).trans (endRecord _ _ _ _)).trans
      (teardownAtDark _ _ _))).trans (attempt _ _)
  · exact refl s

theorem darkUnconfirmed (p : PointIx) (i : CtxIx) (c : Context) : OutsideSame s (s.darkUnconfirmed p i c) := by
  unfold State.darkUnconfirmed; split
  · exact (((((((discharge s c).trans (modPoint _ _ _)).trans (writeRun _ _ _ _)).trans
      (raiseDarkUnconfirmed _)).trans (endRecord _ _ _ _)).trans (teardownAtDark _ _ _))).trans (attempt _ _)
  · exact refl s

theorem retireAtTail (i : CtxIx) (c : Context) (e : Ending) (m : Mode) : OutsideSame s (s.retireAtTail i c e m) :=
  ((enter s _ _ _).trans (modPoint _ _ _)).trans (grant _ _)

theorem abortEffect (i : CtxIx) (c : Context) (e : Ending) : OutsideSame s (s.abortEffect i c e) := by
  unfold State.abortEffect
  split
  · exact endNeverLit s _ _ _
  · exact endNeverLit s _ _ _
  · exact endNeverLit s _ _ _
  · split
    · exact endNeverLit s _ _ _
    · exact enter s _ _ _
  · split
    · exact setContext s _ _
    · exact retireHolder s _ _ _ _ _
  · exact retireAtTail s _ _ _ _
  · exact retireAtTail s _ _ _ _
  · exact refl s
  · exact refl s

theorem localAbort (i : CtxIx) (c : Context) (e : Ending) : OutsideSame s (s.localAbort i c e) :=
  (offerAborts s _ _ _).trans (abortEffect _ _ _ _)

theorem requeue (p : PointIx) (i : CtxIx) (c : Context) (x : CtxState) : OutsideSame s (s.requeue p i c x) :=
  ((setContext s _ _).trans (modPoint _ _ _)).trans (grant _ _)

theorem violation (p : PointIx) (i : CtxIx) (c : Context) (n : Nat) : OutsideSame s (s.violation p i c n) := by
  unfold State.violation
  split
  · exact rampFault s _ _ _ _
  · split
    · exact (setContext s _ _).trans (offerSetting _ _ _ _)
    · exact rampFault s _ _ _ _
    · exact rampFault s _ _ _ _

theorem measureForward (p : PointIx) (i : CtxIx) (c : Context) (n : Nat) : OutsideSame s (s.measureForward p i c n) := by
  unfold State.measureForward
  split
  · exact violation s _ _ _ _
  · split
    · exact refl s
    · split
      · exact (settleTurn s _ _ _).trans (grant _ _)
      · exact rampFault s _ _ _ _
      · exact requeue s _ _ _ _

theorem measureBackoff (p : PointIx) (i : CtxIx) (c : Context) (n : Nat) : OutsideSame s (s.measureBackoff p i c n) := by
  unfold State.measureBackoff
  split
  · exact violation s _ _ _ _
  · exact requeue s _ _ _ _

theorem countSweep (p : PointIx) : OutsideSame s (s.countSweep p) := by
  unfold State.countSweep
  split
  · exact refl s
  · split
    · split
      · split
        · exact (modPoint s _ _).trans (measureForward _ _ _ _ _)
        · exact modPoint s _ _
      · split
        · exact (modPoint s _ _).trans (measureBackoff _ _ _ _ _)
        · exact modPoint s _ _
      · split
        · exact (modPoint s _ _).trans (requeue _ _ _ _ _)
        · exact modPoint s _ _
      · exact refl s
    · exact refl s

theorem acceptSweep (p : PointIx) (q : Byte) (r : List Word16) : OutsideSame s (s.acceptSweep p q r) :=
  ((modPoint s _ _).trans (mapContexts _ _)).trans (countSweep _ _)

theorem serviceOutcome (p : PointIx) (o : SettingOutcome) : OutsideSame s (s.serviceOutcome p o) := by
  unfold State.serviceOutcome
  cases o
  · exact (modPoint s _ _).trans (grant _ _)
  · exact ((modPoint s _ _).trans (raiseActuator _)).trans (grant _ _)
  · exact ((modPoint s _ _).trans (raiseActuator _)).trans (grant _ _)

theorem rampOutcome (p : PointIx) (i : CtxIx) (c : Context) (x : RampSub) (n : Nat) (o : SettingOutcome) :
    OutsideSame s (s.rampOutcome p i c x n o) := by
  cases o
  · unfold State.rampOutcome; exact (setContext s _ _).trans (modPoint _ _ _)
  · exact rampFault s _ _ _ _
  · exact rampFault s _ _ _ _

theorem abortOutcome (p : PointIx) (i : CtxIx) (c : Context) (e : Ending) (o : SettingOutcome) :
    OutsideSame s (s.abortOutcome p i c e o) := by
  cases o <;> exact retireHolder s _ _ _ _ _

theorem gradualOutcome (p : PointIx) (i : CtxIx) (c : Context) (o : SettingOutcome) :
    OutsideSame s (s.gradualOutcome p i c o) := by
  unfold State.gradualOutcome
  split
  · split
    · exact dark s _ _ _
    · exact (setContext s _ _).trans (modPoint _ _ _)
  · exact hardTurn s _ _
  · exact hardTurn s _ _

theorem hardOutcome (p : PointIx) (i : CtxIx) (c : Context) (o : SettingOutcome) :
    OutsideSame s (s.hardOutcome p i c o) := by
  cases o
  · exact dark s _ _ _
  · exact darkUnconfirmed s _ _ _
  · exact darkUnconfirmed s _ _ _

/-- What the delivery of an outcome can touch (R64, R69, R75, R82, R86, R92). -/
theorem deliver (p : PointIx) (o : SettingOutcome) : OutsideSame s (s.deliver p o) := by
  unfold State.deliver
  split
  · exact serviceOutcome s _ _
  · split
    · exact refl s
    · split
      · exact refl s
      · split
        · split
          · exact abortOutcome s _ _ _ _ _
          · exact rampOutcome s _ _ _ _ _ _
        · exact gradualOutcome s _ _ _ _
        · exact hardOutcome s _ _ _ _
        · exact refl s

theorem sweepExpiry (p : PointIx) : OutsideSame s (s.sweepExpiry p) := by
  unfold State.sweepExpiry
  split
  · split
    · exact refl s
    · split
      · exact rampFault s _ _ _ _
      · exact (modPoint s _ _).trans (hardTurn _ _ _)
      · exact refl s
  · exact refl s

end OutsideSame

end Sys2Proof.Machine
end

