-- ==== Sys2Proof/Laws/Commands.lean ====
section
/-! SUPPORT. What an execution does, said once: the taking of the intake, the general checks, and the two answers. -/

namespace Sys2Proof.Machine

variable {s : State} {st : Station} {code : Byte} {args : List Byte}

/-- The held byte of a station is the one of a hold on it (R151). -/
theorem heldByte_eq_some (x : Byte) (e : Bool) : s.heldByte st = some (x, e) ↔ s.bus = .held st x e := by
  unfold State.heldByte
  cases s.bus with
  | held h y f =>
    by_cases hs : h = st
    · simp [hs]
    · simp [hs]
  | idle => simp
  | discarding => simp
  | write _ => simp
  | read _ _ => simp

/-- No byte of a station is held where there is no hold on it. -/
theorem heldByte_eq_none : s.heldByte st = none ↔ ∀ x e, s.bus ≠ .held st x e := by
  rw [Option.eq_none_iff_forall_ne_some]
  exact ⟨fun h x e hb => h (x, e) ((heldByte_eq_some x e).2 hb), fun h a ha => h a.1 a.2 ((heldByte_eq_some a.1 a.2).1 ha)⟩

/-- Where no byte of the station is held, the taking of its intake empties it (R152). -/
theorem taken_of_not_held (h : ∀ x e, s.bus ≠ .held st x e) :
    s.taken st = { s with intakes := put s.intakes st .empty, lastServed := st } := by
  simp only [State.taken, heldByte_eq_none.2 h]

/-- Where a byte of the station is held, the taking of its intake stores it (R151). -/
theorem taken_of_held {x : Byte} {e : Bool} (h : s.bus = .held st x e) :
    s.taken st = { s with
      intakes := put s.intakes st (if e then .full ⟨x, [], false, false⟩ else .filling ⟨x, [], false, false⟩)
      bus := if e then .idle else .write st
      lastServed := st } := by
  simp only [State.taken, (heldByte_eq_some x e).2 h]

/-- What the taking of an intake does, with a byte held there and without one (R151, R152). -/
theorem takeIntake_eq_taken (s : State) (st : Station) : s.takeIntake st = s.taken st := by
  unfold State.takeIntake
  cases hb : s.bus with
  | held h x e =>
    by_cases hs : h = st
    · subst hs; rw [taken_of_held hb]; cases e <;> simp [State.setIntake, intakeWith, Command.start]
    · rw [taken_of_not_held (by rintro y f hf; exact hs (by rw [hb] at hf; exact (Bus.held.inj hf).1))]
      simp [hs, State.setIntake, hb]
  | idle => rw [taken_of_not_held (by simp [hb])]; simp [State.setIntake, hb]
  | discarding => rw [taken_of_not_held (by simp [hb])]; simp [State.setIntake, hb]
  | write _ => rw [taken_of_not_held (by simp [hb])]; simp [State.setIntake, hb]
  | read _ _ => rw [taken_of_not_held (by simp [hb])]; simp [State.setIntake, hb]

/-- Taking an intake touches the SBI's intakes, its transaction and the last-served station alone (R151, R152). -/
theorem takeIntake_eq (s : State) (st : Station) :
    s.takeIntake st =
      { s with intakes := (s.takeIntake st).intakes, bus := (s.takeIntake st).bus, lastServed := st } := by
  unfold State.takeIntake State.setIntake
  dsimp only
  split
  · split <;> rfl
  all_goals rfl

/-- The codes below 0x10 that name a command are those a locked station may use (R158, R180). -/
theorem allowed_below (code : Byte) : commandCodes.contains code = true → code.toNat < 0x10 → allowedWhenLocked code = true := by
  revert code; decide

/-- The general checks pass for a whole command whose code and length fit, of a station that may issue it (R161). -/
theorem generalCheck_none (layout : List Byte → Bool) (hc : commandCodes.contains code = true) (hl : layout args = true)
    (hk : 0x10 ≤ code.toNat → s.lockedOut st = false) : s.generalCheck st ⟨code, args, false, false⟩ layout = none := by
  have h : (s.lockedOut st && !allowedWhenLocked code) = false := by
    by_cases n : 0x10 ≤ code.toNat
    · simp [hk n]
    · simp [allowed_below code hc (by omega)]
  unfold State.generalCheck
  simp only [hc, hl, h, Bool.or_self, Bool.not_true, Bool.false_eq_true, if_false]

/-- The station that issues a state-changing command is not locked out (R158). -/
theorem Executes.not_lockedOut (h : Executes s st code args) (hc : 0x10 ≤ code.toNat) : s.lockedOut st = false := by
  by_cases hs : st = 0
  · simp [State.lockedOut, hs]
  · simp [State.lockedOut, h.notLocked hc hs]

/-- An execution of a whole command that its row takes answers as the row's body says (R161). -/
theorem runCommand_executes (h : Executes s st code args) (ofRow : Command → Bool) (layout : List Byte → Bool)
    (body : Station → List Byte → State → Verdict) (hr : ofRow ⟨code, args, false, false⟩ = true)
    (hc : commandCodes.contains code = true) (hl : layout args = true) :
    runCommand ofRow layout body s = .next ((s.taken st).answer st code (body st args (s.taken st))) := by
  have hk : 0x10 ≤ code.toNat → (s.taken st).lockedOut st = false := h.not_lockedOut
  simp only [runCommand, h.served, hr, if_true, State.execute, takeIntake_eq_taken]
  rw [generalCheck_none layout hc hl hk]

/-- The same where the body accepts. -/
theorem runCommand_accepted (h : Executes s st code args) {ofRow : Command → Bool} {layout : List Byte → Bool}
    {body : Station → List Byte → State → Verdict} {t : State} {data : List Byte}
    (hr : ofRow ⟨code, args, false, false⟩ = true) (hc : commandCodes.contains code = true) (hl : layout args = true)
    (hb : body st args (s.taken st) = .accepted t data) :
    runCommand ofRow layout body s = .next (t.accepting st code data) := by
  rw [runCommand_executes h ofRow layout body hr hc hl, hb]; rfl

/-- The same where the body refuses: nothing but the holder changes (R161). -/
theorem runCommand_refused (h : Executes s st code args) {ofRow : Command → Bool} {layout : List Byte → Bool}
    {body : Station → List Byte → State → Verdict} {r : ReplyCause}
    (hr : ofRow ⟨code, args, false, false⟩ = true) (hc : commandCodes.contains code = true) (hl : layout args = true)
    (hb : body st args (s.taken st) = .refused r) :
    runCommand ofRow layout body s = .next ((s.taken st).refusing st code r.code r.detail) := by
  rw [runCommand_executes h ofRow layout body hr hc hl, hb]; rfl

/-- An intake is served only when it is FULL (R152). -/
theorem served_full {c : Command} (h : s.served = some (st, c)) : s.intakes[st] = .full c := by
  obtain ⟨x, -, hx⟩ := List.exists_of_findSome?_eq_some h
  split at hx
  · simp only [Option.some.injEq, Prod.mk.injEq] at hx
    obtain ⟨rfl, rfl⟩ := hx
    assumption
  · simp at hx
  · simp at hx

/-! ## Numbers in and out of bytes (R179) -/

theorem word16_bytes16 (w : Word16) : word16 ((w >>> 8).setWidth 8) (w.setWidth 8) = w := by
  apply BitVec.eq_of_getLsbD_eq
  intro i hi
  simp only [word16, BitVec.getLsbD_append, BitVec.getLsbD_setWidth, BitVec.getLsbD_ushiftRight]
  by_cases h1 : i < 8
  · simp [h1]
  · have h2 : i - 8 < 8 := by omega
    simp [h1, h2]; congr 1; omega

theorem word32_bytes32 (w : Word32) :
    word32 ((w >>> 24).setWidth 8) ((w >>> 16).setWidth 8) ((w >>> 8).setWidth 8) (w.setWidth 8) = w := by
  apply BitVec.eq_of_getLsbD_eq
  intro i hi
  simp only [word32, BitVec.getLsbD_append, BitVec.getLsbD_setWidth, BitVec.getLsbD_ushiftRight]
  by_cases h1 : i < 8
  · simp [h1]
  · by_cases h2 : i - 8 < 8
    · simp [h1, h2]; congr 1; omega
    · by_cases h3 : i - 8 - 8 < 8
      · simp [h1, h2, h3]; congr 1; omega
      · have h4 : i - 8 - 8 - 8 < 8 := by omega
        simp [h1, h2, h3, h4]; congr 1; omega

end Sys2Proof.Machine
end

