-- ==== Sys2Proof/Laws/Turns.lean ====
section
/-! SUPPORT. What the turns of a point engine do, said once, in the terms the claims use. -/

namespace Sys2Proof.Machine

/-! ## Writing twice -/

theorem put_put {α : Type} {n : Nat} (v : Vector α n) (i : Fin n) (x y : α) : put (put v i x) i y = put v i y := by
  simp [put]

namespace State

variable (s : State)

theorem setContext_setContext (i : CtxIx) (a b : Option Context) : (s.setContext i a).setContext i b = s.setContext i b := by
  simp only [State.setContext, put_put]

theorem modPoint_modPoint (p : PointIx) (f g : Point → Point) :
    (s.modPoint p f).modPoint p g = s.modPoint p fun q => g (f q) := by
  simp only [State.modPoint, put_put, Fin.getElem_fin, put_get_self]

/-- A record written again after a state change, its notification standing. -/
theorem enter_setContext (i : CtxIx) (c : Context) (x : CtxState) (b : Option Context) :
    (s.enter i c x).setContext i b = (s.setContext i b).notify i c.owner := by
  simp only [State.enter, State.notify, State.setContext, put_put]

/-! ## Retirement turns (R81, R85) -/

theorem restoreSetting_eq (c : Context) : restoreSetting c.attenuation = c.turnSetting := by
  unfold restoreSetting Context.turnSetting; cases c.attenuation <;> rfl

theorem gradualTurn_eq {i : CtxIx} {c : Context} (h : s.context i = some c) (p : PointIx) :
    s.gradualTurn p i = s.turnBegun p i c .gradual := by
  unfold State.gradualTurn State.turnBegun
  rw [h]
  have e : (c.turned .gradual).attenuation = (c.journal.getLast?.map JournalRecord.before).getD .block := by
    unfold Context.turned; cases c.journal.getLast? <;> rfl
  simp only [← restoreSetting_eq, e]
  unfold Context.turned
  cases c.journal.getLast? <;> rfl

theorem hardTurn_eq {i : CtxIx} {c : Context} (h : s.context i = some c) (p : PointIx) :
    s.hardTurn p i = s.turnBegun p i c .hard := by
  unfold State.hardTurn State.turnBegun; rw [h]; rfl

theorem retireTurn_eq {i : CtxIx} {c : Context} (h : s.context i = some c) (p : PointIx) (m : Mode) :
    s.retireTurn p i m = s.turnBegun p i c m := by
  cases m
  · exact s.gradualTurn_eq h p
  · exact s.hardTurn_eq h p

/-- The holder's entry into RETIRING (R72, R75, R76, R79). -/
theorem retireHolder_eq (p : PointIx) (i : CtxIx) (c : Context) (e : Ending) (m : Mode) :
    s.retireHolder p i c e m = s.holderRetired p i c e m := by
  unfold State.retireHolder
  rw [retireTurn_eq _ (State.enter_context _ i i _ _ |>.trans (if_pos rfl))]
  unfold State.turnBegun State.holderRetired
  rw [enter_setContext]
  cases m <;> rfl

/-- A turn that ends in a fault (R72). -/
theorem rampFault_eq (p : PointIx) (i : CtxIx) (c : Context) (f : Cause) : s.rampFault p i c f = s.faulted p i c f := by
  unfold State.rampFault State.faulted State.offerAborts
  rw [retireHolder_eq]
  have : faultMode f = if f = .guardFault ∨ f = .reachShort ∨ f = .overReach then .gradual else .hard := by
    cases f <;> rfl
  rw [this]; rfl

/-! ## Settle and guard (R50, R70) -/

theorem guardViolated_iff (p : PointIx) (i : CtxIx) : s.guardViolated p i = true ↔ ¬GuardKept s p i := by
  unfold GuardKept State.guardViolated
  rw [List.any_eq_true]
  constructor
  · rintro ⟨j, -, h⟩ g
    rw [Bool.and_eq_true] at h
    obtain ⟨h1, h2⟩ := h
    split at h2
    · rename_i c hc
      simp only [deviates, Bool.and_eq_true, beq_iff_eq] at h2
      obtain ⟨⟨h3, h4⟩, h5⟩ := h2
      split at h5
      · rename_i r m hr hm
        have := g j c m r (by simpa using h1) hc h3 (by rintro h; simp [h] at h4) hm hr (by simp at h5; exact h5.1)
        simp at h5; omega
      · cases h5
    · cases h2
  · intro g
    by_contra n
    refine g fun j x m r hj hx hp hq hm hr hf => ?_
    by_contra hd
    refine n ⟨j, List.mem_finRange j, ?_⟩
    have : x.charge.isSome = true := Option.isSome_iff_ne_none.2 hq
    simp [hj, hx, hp, this, deviates, hm, hr, hf]
    omega

theorem inWindow_iff (w : Nat) (d : Int) : inWindow w d = true ↔ d.natAbs ≤ w := by
  simp only [inWindow, Bool.and_eq_true, decide_eq_true_eq]; omega

/-- What a settle writes before it hands the context on (R70, steps 1 to 4). -/
def settled (p : PointIx) (i : CtxIx) (c : Context) (x : CtxState) : State :=
  ((s.refreshReferences p).releaseLock p).enter i { c with reference := c.lastMeasured.map Measured.toReference } x

theorem settleTurn_eq (p : PointIx) (i : CtxIx) (c : Context) : s.settleTurn p i c =
    if c.sides.role = .tail then
      ((s.settled p i c .inService).writeRun c.sides.mapsUsed c.run (.lit i)).offerTo c.sides.upstream c.lightpathId .lit
    else (s.settled p i c .passed).offerTo c.sides.downstream c.lightpathId .light := by
  unfold State.settleTurn State.settled
  split <;> rename_i h <;> simp [h, Sides.role, Sides.upstream, Sides.downstream, State.offerTo]

theorem settled_context (p : PointIx) (i j : CtxIx) (c : Context) (x : CtxState) : (s.settled p i c x).context j =
    if i = j then some { c with
      state := x, reference := c.lastMeasured.map Measured.toReference
      watchTimer := watchLoad s.timing c x }
    else (s.context j).map fun y => y.refresh p := by
  rw [settled, State.enter_context]
  congr 1
  simp only [State.releaseLock, State.modPoint, State.refreshReferences, State.mapContexts, State.context, Fin.getElem_fin, mapAll_get]

theorem settled_point (p q : PointIx) (i : CtxIx) (c : Context) (x : CtxState) : (s.settled p i c x).point q =
    if p = q then { s.point p with holder := none } else s.point q :=
  (s.refreshReferences p).modPoint_point p q fun y => { y with holder := none }

theorem settled_changed (p : PointIx) (i j : CtxIx) (c : Context) (x : CtxState) (st : Station) :
    ((s.settled p i c x).changed[st])[j] = if j = i ∧ (st = 0 ∨ st = c.owner) then true else (s.changed[st])[j] := by
  rw [settled, State.enter_changed]
  by_cases h : j = i ∧ (st = 0 ∨ st = c.owner)
  · rw [if_pos h]; obtain ⟨rfl, h | h⟩ := h <;> simp [h]
  · rw [if_neg h]
    have : ¬((c.owner = st ∨ st = 0) ∧ i = j) := fun ⟨a, b⟩ => h ⟨b.symm, a.elim (fun e => .inr e.symm) .inl⟩
    simp only [this, decide_false, Bool.false_or]; rfl

theorem refresh_eq (p : PointIx) : (fun x : Context => x.refresh p) = fun x =>
    if x.point = p ∧ (x.state = .passed ∨ x.state = .inService) ∧ x.charge ≠ none ∧ x.lastMeasured ≠ none then
      { x with reference := x.lastMeasured.map fun v => ⟨v.power, v.floor⟩ } else x := by
  funext x
  unfold Context.refresh Context.refreshable Context.settled
  simp only [Bool.and_eq_true, Bool.or_eq_true, beq_iff_eq, Option.isSome_iff_ne_none, and_assoc]
  rfl

theorem offerTo_links {s t : State} (hl : s.links = t.links) (hn : s.nodeId = t.nodeId) (d : Option Degree) (n : Word32)
    (b : FrameBody) : (s.offerTo d n b).links = (t.offerTo d n b).links := by
  cases d <;> simp [State.offerTo, State.offer, State.modLink, hl, hn]

/-- A settle, up to the lock grant behind it (R70). -/
theorem settleTurn_settles {p : PointIx} {i : CtxIx} {c : Context} {m : Measured} (hm : c.lastMeasured = some m) :
    Settles s (s.settleTurn p i c) p i c m := by
  have e : c.lastMeasured.map Measured.toReference = some ⟨m.power, m.floor⟩ := by rw [hm]; rfl
  rw [settleTurn_eq]
  by_cases h : c.sides.role = .tail
  · rw [if_pos h]
    constructor
    · simp only [if_pos h, State.context, offerTo_contexts, writeRun_contexts]
      exact (s.settled_context p i i c .inService).trans (by rw [if_pos rfl, e]; rfl)
    · intro j hj
      rw [← refresh_eq]
      simp only [State.context, offerTo_contexts, writeRun_contexts]
      exact (s.settled_context p i j c _).trans (if_neg (Ne.symm hj))
    · simp only [State.point, offerTo_points, writeRun_points]
      exact (s.settled_point p p i c _).trans (if_pos rfl)
    · intro q hq
      simp only [State.point, offerTo_points, writeRun_points]
      exact (s.settled_point p q i c _).trans (if_neg (Ne.symm hq))
    · intro n k hk
      simp only [h, true_and, State.slotAt, offerTo_maps]
      exact State.writeRun_slotAt _ _ _ _ _ hk
    · intro x j
      rw [offerTo_eq, writeRun_eq]
      exact s.settled_changed p i j c _ x
    · simp only [if_pos h]
      exact offerTo_links (by rw [writeRun_eq]; rfl) (by rw [writeRun_eq]; rfl) _ _ _
    · rw [offerTo_eq, writeRun_eq]; rfl
  · rw [if_neg h]
    constructor
    · simp only [if_neg h, State.context, offerTo_contexts]
      exact (s.settled_context p i i c .passed).trans (by rw [if_pos rfl, e]; rfl)
    · intro j hj
      rw [← refresh_eq]
      simp only [State.context, offerTo_contexts]
      exact (s.settled_context p i j c _).trans (if_neg (Ne.symm hj))
    · simp only [State.point, offerTo_points]
      exact (s.settled_point p p i c _).trans (if_pos rfl)
    · intro q hq
      simp only [State.point, offerTo_points]
      exact (s.settled_point p q i c _).trans (if_neg (Ne.symm hq))
    · intro n k hk
      simp only [h, false_and, if_false, State.slotAt, offerTo_maps]; rfl
    · intro x j
      rw [offerTo_eq]
      exact s.settled_changed p i j c _ x
    · simp only [if_neg h]
      exact offerTo_links (s := s.settled p i c .passed) (t := s) rfl rfl _ _ _
    · rw [offerTo_eq]; rfl

/-! ## Admission (R56) -/

theorem admitOne_context (p : PointIx) (i j : CtxIx) (rest : List CtxIx) (c : Context) :
    (s.admitOne p i rest c).context j = if i = j then some { c with
      charge := some (chargeOf c.target c.window), step := c.baseStep, state := .ramping .queued 0, watchTimer := none }
      else s.context j := by
  simp only [State.admitOne, enter_context]; rfl

theorem admitOne_point (p q : PointIx) (i : CtxIx) (rest : List CtxIx) (c : Context) :
    (s.admitOne p i rest c).point q = if p = q then { s.point p with
      load := (s.point p).load + chargeOf c.target c.window, line := rest, queue := (s.point p).queue ++ [i] }
      else s.point q := by
  simp only [State.point, State.admitOne, enter_points]
  exact modPoint_point s p q _

theorem admitOne_changed (p : PointIx) (i j : CtxIx) (rest : List CtxIx) (c : Context) (st : Station) :
    (s.admitOne p i rest c).changed[st][j] = (decide ((c.owner = st ∨ st = 0) ∧ i = j) || s.changed[st][j]) := by
  simp only [State.admitOne, enter_changed]; rfl

/-- An admission changes the record, its point and the changed sets alone. -/
theorem admitOne_rest (p : PointIx) (i : CtxIx) (rest : List CtxIx) (c : Context) :
    { s.admitOne p i rest c with contexts := s.contexts, points := s.points, changed := s.changed } = s := rfl

end State

end Sys2Proof.Machine
end

