-- ==== Sys2Proof/WellFormed.lean ====
section
/-! DEFINITION. Which terms of Instr an event of the part can carry. -/

namespace Sys2Proof

/-- The direction bits of an address byte, bits 3 and 2 (R180): WRITE 01, READ 10, POLL 11. -/
def directionBits (address : Byte) : BitVec 2 := (address >>> 2).setWidth 2

/-- A WRITE opens with the direction WRITE, or with the unused code 00 that discards the transaction (R149, R180). -/
def BusStart.opensWrite (b : BusStart) : Bool := directionBits b.address == 1#2 || directionBits b.address == 0#2

/-- A READ opens with the direction READ (R180). -/
def BusStart.opensRead (b : BusStart) : Bool := directionBits b.address == 2#2

/-- A POLL opens with the direction POLL (R180). -/
def BusStart.opensPoll (b : BusStart) : Bool := directionBits b.address == 3#2

/-- The END mark travels with a byte (R180), so a WRITE that presents none carries none. -/
def endMarkHasByte (data : List Byte) (endMark : Bool) : Bool := !endMark || !data.isEmpty

/-- A frame ends at its declared length, which one byte carries (R181): no completion delivers more than 255 bytes. -/
def frameBytesFit (bytes : List Byte) : Bool := bytes.length ≤ 255

/-- A command or event of the table with operands that the port in question can carry. -/
def Instr.wellFormed : Instr → Bool
  | .write start data endMark => start.all BusStart.opensWrite && endMarkHasByte data endMark
  | .read start _ => start.all BusStart.opensRead
  | .poll start => start.opensPoll
  | .frameCompletion _ bytes => frameBytesFit bytes
  | .readNode => true | .readContext => true | .nextChanged => true | .readMap => true | .readPoint => true
  | .readLink => true | .setAttentionMask => true | .clearStation => true | .configureNode => true
  | .openNode => true | .closeNode => true | .setTiming => true | .setPoint => true | .setLockout => true
  | .linkControlEnable => true | .linkControlDisable => true | .barSlots => true | .unbarSlots => true
  | .forceDark => true | .rereferencePoint => true | .adoptLightpath => true | .beginLightpath => true
  | .startRamp => true | .teardownLightpath => true | .abortLightpath => true | .releaseContext => true
  | .unknownCommand => true | .busClear => true | .reset _ _ => true | .carrierArrival _ => true
  | .carrierLoss _ => true | .frameDeparture _ => true | .receiveError _ => true | .probe _ => true
  | .clear _ => true | .refuse _ => true | .light _ => true | .lit _ => true | .abort _ => true
  | .teardown _ => true | .sweepRecord _ => true | .acknowledgement _ => true | .actuatorTimerExpiry _ => true
  | .settingTransmission => true | .watchTimerExpiry _ => true | .sweepTimerExpiry _ => true
  | .unknownFrameKind _ => true | .otherTargetAddressByte _ => true

end Sys2Proof
end

