-- ==== Sys2Proof/Tests/Slice0.lean ====
section
/-! SUPPORT. Tests of the model against figures of the spec, the refusals of WellFormed, and one state for each hypothesis of the
statements. -/

-- Each kernel evaluation below would wait in a thread of its own; one after another they need little memory.
set_option Elab.async false

namespace Sys2Proof.Tests

open Sys2Proof.Machine

/-! ## Ill-formed terms are refused -/

theorem test_write_direction : (Instr.write (some ⟨0x98, 3, true⟩) [1] true).wellFormed = false := by decide

theorem test_write_end_without_byte : (Instr.write (some ⟨0x94, 3, true⟩) [] true).wellFormed = false := by decide

theorem test_read_direction : (Instr.read (some ⟨0x94, 3, true⟩) 1).wellFormed = false := by decide

theorem test_poll_direction : (Instr.poll ⟨0x98, 3, true⟩).wellFormed = false := by decide

theorem test_frame_too_long : (Instr.frameCompletion 0 (List.replicate 256 0)).wellFormed = false := by decide +kernel

theorem test_opening_write : (Instr.write (some ⟨0x94, 3, true⟩) [1] true).wellFormed = true := by decide

/-! ## Figures of the spec -/

/-- The worked conversions of section 3.2: −0.7 dBm, +23.0 dBm, +22.9 dBm and the two ends of the range. -/
theorem test_forward : forward (-7) = 8515000 ∧ forward 230 = 1995000000 ∧ forward 229 = 1950000000 ∧
    forward (-400) = 1000 ∧ forward 250 = 3162000000 := by decide +kernel

/-- A sum that is the linear value of a power converts back to it; one more rounds up (R42). -/
theorem test_reverse : reverse 8515000 = ⟨-7, false, false⟩ ∧ reverse 8515001 = ⟨-6, false, false⟩ ∧
    reverse 999 = ⟨-400, true, false⟩ ∧ reverse 3162000001 = ⟨250, false, true⟩ := by decide +kernel

/-- The target and the charge of section 12: width 4 at density −7.0 dBm, window 3. -/
theorem test_target_charge : targetOf (-70) 4 = -10 ∧ chargeOf (-10) 3 = 8515000 ∧ targetOf 100 16 = 200 := by decide +kernel

/-- The ramp of section 12: 36 left of a step of 20 goes to 34; the first grant opens at 250. -/
theorem test_grant : numericGrant 50 3 20 16 = .stepTo 34 ∧ numericGrant 250 3 20 216 = .stepTo 230 ∧
    numericGrant 0 3 20 4 = .fault .reachShort ∧ numericGrant 250 3 20 (-4) = .fault .overReach ∧
    numericGrant 34 3 20 3 = .settle := by decide

/-- A push at sixteen records merges the two oldest (R62, section 5.8). -/
theorem test_journal_merge :
    pushJournal (⟨.block, .tenths 250⟩ :: ⟨.tenths 250, .tenths 240⟩ ::
      List.replicate 14 ⟨.tenths 10, .tenths 9⟩) ⟨.tenths 9, .tenths 8⟩ =
    ⟨.block, .tenths 240⟩ :: (List.replicate 14 ⟨.tenths 10, .tenths 9⟩ ++ [⟨.tenths 9, .tenths 8⟩]) := by decide

/-- The published check value of the cyclic code R181 describes, over the bytes of "123456789". -/
theorem test_frame_check : frameCheck [0x31, 0x32, 0x33, 0x34, 0x35, 0x36, 0x37, 0x38, 0x39] = 0xD64E#16 := by decide +kernel

/-- Tags wrap from 255 to 0 and skip the ones held (R143). -/
theorem test_tag_wraps : firstFreeTag (fun t => t == 254 || t == 255) 16 254 = 0 := by decide

/-- Run lengths join equal neighbours (R17), and an entry's bytes carry its state, its count and its context (R180). -/
theorem test_run_lengths : runLengths [.free, .free, .held 5, .barred] = [(.free, 2), (.held 5, 1), (.barred, 1)] ∧
    mapEntryBytes (.free, 384) = [0x01, 0x80, 0xFF] ∧ mapEntryBytes (.lit 5, 4) = [0x80, 4, 5] := by decide

/-! ## States for the tests -/

/-- A node with ID 101, open, with every link up. -/
def node : State :=
  { State.reset with nodeId := 101, nodeOpen := true, links := Vector.replicate 8 { Link.reset true with state := .up } }

/-- The state with a whole command in a station's intake. -/
def issue (s : State) (st : Station) (code : Byte) (args : List Byte) : State :=
  { s with intakes := put s.intakes st (.full ⟨code, args, false, false⟩) }

/-- A record in a state, with the fields that its state has. -/
def record (x : CtxState) (sides : Sides) : Context where
  state := x
  sides := sides
  adopted := false
  rampOnClear := some false
  lightpathId := 9001
  owner := 3
  run := ⟨30, 4⟩
  hopIndex := some 0
  routeLength := some 3
  route := none
  target := -10
  window := 3
  baseStep := some 20
  step := some 20
  attenuation := .block
  journal := []
  charge := if x.charged then some 8515000 else none
  lastMeasured := none
  reference := none
  abortPending := none
  ending := if x.ending then some ⟨.completed, .completed, 101, some 0, none, none⟩ else none
  watchTimer := if x.watched then some 0 else none

/-- The node with a record at index 0. -/
def nodeWith (c : Context) : State := node.setContext 0 (some c)

/-- The state with a frame, from node 102, at the head of link 2's receive queue. -/
def arrived (s : State) (id : Word32) (body : FrameBody) : State :=
  s.modLink 2 fun l => { l with rx := [⟨(⟨102, id, body⟩ : Frame).encode, .ok⟩] }

/-! ## Sections 12.1, 12.2 and 12.5, event by event -/

/-- The state that an outcome goes on to. -/
def after (s : State) (i : Instr) : State :=
  match exec i s with
  | .next t => t
  | _ => s

/-- Event 1: PROBING with timer 1,500, O2 30 to 33 HELD, and the reply with the index and the first slot. -/
theorem test_begin :
    let s := after (issue node 3 0x20 ([0, 0, 0x23, 0x29, 6, 3, 0, 30, 4, 3, 20, 0] ++ [2, 1, 7])) .beginLightpath
    ((s.context 0).map fun c => (c.state, c.watchTimer, c.target)) = some (.probing, some 1500, -10) ∧
      s.slotAt 10 29 = .free ∧ s.slotAt 10 30 = .held 0 ∧ s.slotAt 10 33 = .held 0 ∧ s.slotAt 10 34 = .free ∧
      s.holders[3] = some [0, 0x20, 0, 0, 30] ∧
      (s.link 2).tx = [⟨101, 9001, .probe 1 30 4 3 20 3 [2, 1, 7]⟩] := by decide +kernel

/-- Event 3: the tail in RESERVED with timer 300,000, and CLEAR with hop 2. -/
theorem test_probe_tail :
    let s := after (arrived node 9001 (.probe 2 30 4 3 20 3 [2, 1, 7])) (.probe 2)
    ((s.context 0).map fun c => (c.state, c.watchTimer, c.owner)) = some (.reserved, some 300000, 3) ∧
      s.slotAt 2 30 = .held 0 ∧ (s.link 2).tx = [⟨101, 9001, .clear 2⟩] := by decide +kernel

/-- Event 6: the ramp begins with ROUTE SET from the add port at 250, and the charge is on the load. -/
theorem test_start_ramp :
    let s := after (issue (nodeWith (record .reserved (.head 6 2))) 3 0x21 [0, 0, 0x23, 0x29]) .startRamp
    ((s.context 0).map fun c => (c.state, c.attenuation, c.charge)) =
        some (.ramping .actuating 0, .tenths 250, some 8515000) ∧
      (s.point 2).load = 8515000 ∧ (s.point 2).holder = some 0 ∧ (s.point 2).queue = [] ∧
      s.toSend = [⟨0, 2, ⟨30, 4⟩, .routeSet (.addPort 6) 250⟩] := by decide +kernel

/-- Section 12.2: the claim fails on the egress map at slot 32, and the REFUSE names it. -/
theorem test_probe_slot_busy :
    let s := after (arrived (node.writeRun [9] ⟨32, 1⟩ (.lit 9)) 9001 (.probe 1 30 4 3 20 3 [2, 1, 7])) (.probe 2)
    s.context 0 = none ∧ (s.link 2).tx = [⟨101, 9001, .refuse .slotBusy 101 1 (some 32)⟩] := by decide +kernel

/-- Section 12.5: a teardown's first turn restores the attenuation of the newest record. -/
theorem test_teardown :
    let s := after (issue (nodeWith { record .inService (.head 6 2) with
      attenuation := .tenths 34, journal := [⟨.block, .tenths 50⟩, ⟨.tenths 50, .tenths 34⟩] }) 3 0x22 [0, 0, 0x23, 0x29])
      .teardownLightpath
    ((s.context 0).map fun c => (c.state, c.attenuation, c.journal)) =
        some (.retiring .gradual .actuating, .tenths 50, [⟨.block, .tenths 50⟩]) ∧
      s.toSend.map Setting.body = [.attenSet 50] := by decide +kernel

/-- A timer that another event has reloaded, and an entry armed anew, have time left: the expiry that was due does not occur (R37, R143). -/
theorem test_stale_expiry :
    let s := { nodeWith { record .reserved (.head 6 2) with watchTimer := some 60000 } with
      outstanding := put node.outstanding 2 (some ⟨0, .block, 250⟩) }
    (after s (.watchTimerExpiry 0)).context 0 = s.context 0 ∧ ((after s (.watchTimerExpiry 0)).link 2).tx = [] ∧
      (after s (.actuatorTimerExpiry 2)).outstanding[(2 : PointIx)] = some ⟨0, .block, 250⟩ := by decide +kernel

/-- The expiry at 0 ends a RESERVED head with cause TIMEOUT and sends ABORT to its one neighbour (R36). -/
theorem test_watch_expiry :
    let s := after (nodeWith (record .reserved (.head 6 2))) (.watchTimerExpiry 0)
    ((s.context 0).map fun c => (c.state, c.ending)) =
        some (.ended, some ⟨.timeout, .timeout, 101, some 0, none, some .reserved⟩) ∧
      (s.link 2).tx = [⟨101, 9001, .abort .timeout 101⟩] := by decide +kernel

/-- An ABORT LIGHTPATH at a context that its expiry has made RETIRING is accepted, and its end cause stays TIMEOUT (R112, R21; log entry 20). -/
theorem test_abort_after_expiry :
    let s := after (issue (nodeWith { record (.retiring .gradual .queued) (.head 6 2) with
      ending := some ⟨.timeout, .timeout, 101, some 0, none, some .passed⟩ }) 3 0x23 [0, 0, 0x23, 0x29]) .abortLightpath
    s.holders[(3 : Station)] = some [0x00, 0x23, 0] ∧ (s.link 2).tx = [] ∧
      ((s.context 0).map fun c => (c.state, c.ending.map Ending.cause)) = some (.retiring .gradual .queued, some .timeout) := by
  decide +kernel

/-- A frame check that fails is counted as a receive error (R129, R131). -/
theorem test_receive_error :
    let s := after (after node (.frameCompletion 2 [5, 10, 0, 102, 0, 0, 0, 1, 0, 0])) (.receiveError 2)
    (s.link 2).rx = [] ∧ (s.link 2).rxErrors = 1 := by decide +kernel

/-- No kind has a check that begins with the byte 3, so a frame declared at 3 bytes never matches its check (R181, log entry 8). -/
theorem test_declared_three : ∀ k : Byte, (frameCheck [k] >>> 8).setWidth 8 ≠ 3#8 := by decide +kernel

/-- A LIT for ID 9001 leaves link 2 as its ten bytes, its check worked out apart from the model (R181). -/
theorem test_departure :
    (after (node.offer 2 9001 .lit) (.frameDeparture 2)).outputs = [.frame 2 [5, 10, 0, 101, 0, 0, 0x23, 0x29, 0xA9, 0x44]] := by
  decide +kernel

/-- An open step from add port 6 at point 2, slots 30 to 33, at 25.0 dB, with tag 0: a ROUTE SET of nine bytes (R182). -/
theorem test_transmission :
    (after (after (node.offerSetting 2 ⟨30, 4⟩ (.routeSet (.addPort 6) 250)) .settingTransmission) .settingTransmission).outputs =
      [.setting [0, 1, 2, 0, 30, 4, 1, 6, 250]] := by decide +kernel

/-! ## What the hypotheses of the statements meet -/

variable {s : State}

theorem mem_serviceOrder (l st : Station) : st ∈ serviceOrder l := by revert l st; decide

theorem findSome_only (l : List Station) (st : Station) (h : st ∈ l) (f : Station → Option (Station × Command)) (x : Station × Command)
    (hs : f st = some x) (hn : ∀ y, y ≠ st → f y = none) : l.findSome? f = some x := by
  induction l with
  | nil => cases h
  | cons y l ih =>
    by_cases e : y = st
    · subst e; simp [hs]
    · rw [List.findSome?_cons, hn y e]
      exact ih ((List.mem_cons.1 h).resolve_left (Ne.symm e))

/-- With every other intake EMPTY, the one that is FULL is served. -/
theorem served_only (st : Station) (c : Command) (h : s.intakes = put (Vector.replicate 9 .empty) st (.full c)) :
    s.served = some (st, c) := by
  refine findSome_only _ st (mem_serviceOrder _ st) _ _ ?_ fun y hy => ?_
  · simp [h]
  · have : put (Vector.replicate 9 Intake.empty) st (.full c) = s.intakes := h.symm
    simp [h, put_get_ne _ _ (Ne.symm hy)]

/-- A command in an otherwise EMPTY station bus executes. -/
theorem executes (s : State) (st : Station) (code : Byte) (args : List Byte)
    (hi : s.intakes = Vector.replicate 9 .empty) (hl : s.lockout = Vector.replicate 9 false) :
    Executes (issue s st code args) st code args where
  served := served_only st _ (by simp [issue, hi])
  notLocked := by simp [issue, hl]

theorem noneLive (h : s.contexts = Vector.replicate 48 none) (id : Word32) : NoneLive s id := by
  intro i c hc; simp [State.context, h] at hc

theorem theLive (c : Context) (h : s.contexts = put (Vector.replicate 48 none) 0 (some c)) (hl : c.live = true) :
    TheLive s c.lightpathId 0 c where
  record := by simp only [State.context, h]; exact put_get_self _ 0 _
  live := hl
  carries := rfl
  only := by
    intro j e he _ _
    by_contra hj
    simp only [State.context, h, Fin.getElem_fin, put_get_ne _ _ (Ne.symm hj)] at he
    simp at he

theorem chooses (h : s.contexts = Vector.replicate 48 none) : Chooses s 0 :=
  .inl ⟨by simp [State.context, h], fun j hj => absurd hj (Nat.not_lt_zero _)⟩

theorem slotAt_free (h : s.maps = Vector.replicate 16 (Vector.replicate 384 .free)) (m : MapIx) {k : Nat} (hk : k < 384) :
    s.slotAt m k = .free := by
  rw [State.slotAt_of_lt _ _ hk]; simp [h]

theorem freeOn (h : s.maps = Vector.replicate 16 (Vector.replicate 384 .free)) (ms : List MapIx) (r : Run)
    (hr : r.first + r.width ≤ 384) : FreeOn s ms r := by
  intro k hk m _
  simp only [Run.covers, Bool.and_eq_true, decide_eq_true_eq] at hk
  exact slotAt_free h m (by omega)

/-- The record, the point and the link that a state was given. -/
theorem context_of {v : Vector (Option Context) 48} {i : CtxIx} {c : Option Context} (h : s.contexts = put v i c) :
    s.context i = c := by rw [State.context, h]; exact put_get_self _ _ _

theorem point_of {v : Vector Point 16} {p : PointIx} {q : Point} (h : s.points = put v p q) : s.point p = q := by
  rw [State.point, h]; exact put_get_self _ _ _

/-- The node with a point given. -/
def nodeAt (p : PointIx) (q : Point) : State := { node with points := put node.points p q }

theorem nodeAt_point (p : PointIx) (q : Point) (st : Station) (code : Byte) (args : List Byte) :
    (issue (nodeAt p q) st code args).point p = q := put_get_self _ p q

theorem heads (s : State) (id : Word32) (body : FrameBody)
    (h : parseFrame s.nodeId (⟨102, id, body⟩ : Frame).encode = some ⟨102, id, body⟩) :
    Heads (arrived s id body) 2 ⟨102, id, body⟩ :=
  ⟨⟨(⟨102, id, body⟩ : Frame).encode, .ok⟩, [], by simp only [arrived, State.modLink_link_self], rfl, h⟩

/-! ### The step and the shelf bus -/

theorem witness_idle : node.pending = [] := rfl

/-- Node 101 in the target address 9: WRITE is 0x94, READ 0x98, POLL 0x9C. -/
theorem addressed : Addressed node ⟨0x94, 3, true⟩ 3 1 ∧ Addressed node ⟨0x98, 8, true⟩ 8 2 ∧
    Addressed node ⟨0x9C, 0, true⟩ 0 3 :=
  ⟨⟨by decide, rfl, by decide, by decide⟩, ⟨by decide, rfl, by decide, by decide⟩, ⟨by decide, rfl, by decide, by decide⟩⟩

/-- An unmarked source byte, station 9, and the direction that is none of the three. -/
theorem witness_discarded :
    (∀ b ∈ ([⟨0x94, 3, false⟩, ⟨0x98, 9, true⟩, ⟨0x90, 3, true⟩] : List BusStart), Discarded node b) ∧
    (∃ s : State, s.bus = .discarding) ∧
    ∃ s : State, s.bus ≠ .discarding ∧ (∀ st, s.bus ≠ .write st) ∧ ∀ st rest, s.bus ≠ .read st rest := by
  refine ⟨fun b h => ⟨?_, ?_⟩, ⟨{ node with bus := .discarding }, rfl⟩,
    ⟨node, by exact (by decide : Bus.idle ≠ .discarding), (fun st h => nomatch h), (fun st rest h => nomatch h)⟩⟩ <;>
  revert h <;> revert b <;> decide

/-- An EMPTY intake, at an opening and in the middle of a WRITE; and one with 64 bytes stored, in the middle of its WRITE. -/
theorem witness_write :
    (∃ s b st, Addressed s b st 1 ∧ s.endTransaction.intakes[st] = .empty) ∧
    (∃ (s : State) (st : Station), s.bus = .write st ∧ s.intakes[st] = .empty) ∧
    ∃ (s : State) (st : Station) (c : Command), s.bus = .write st ∧ s.intakes[st] = .filling c ∧ c.rest.length = 63 :=
  ⟨⟨node, _, 3, addressed.1, by decide⟩, ⟨{ node with bus := .write 3 }, 3, rfl, by decide⟩,
    { node with bus := .write 3, intakes := put node.intakes 3 (.filling ⟨0x20, List.replicate 63 0, false, false⟩) },
    3, _, rfl, put_get_self _ 3 _, by simp⟩

/-- A node with a whole command in station 3's intake. -/
def waiting : State := issue node 3 0x01 []

theorem waiting_served (t : State) (h : t.intakes = waiting.intakes) : t.served = some (3, ⟨0x01, [], false, false⟩) :=
  served_only 3 _ (by rw [h]; rfl)

theorem witness_held_off :
    (∃ s b st c, Addressed s b st 1 ∧ s.endTransaction.intakes[st] = .full c) ∧
    (∃ (s : State) (st : Station) (c : Command), s.bus = .write st ∧ s.intakes[st] = .full c) ∧
    ∃ (i : Instr) (s : State) (st : Station) (c : Command) (x : Byte) (e : Bool),
      s.served = some (st, c) ∧ takesCommand i c = true ∧ s.bus = .held st x e :=
  ⟨⟨waiting, ⟨0x94, 3, true⟩, 3, _, ⟨by decide, rfl, by decide, by decide⟩, put_get_self _ 3 _⟩,
    ⟨{ waiting with bus := .write 3 }, 3, _, rfl, put_get_self _ 3 _⟩,
    .readNode, { waiting with bus := .held 3 0x11 true }, 3, _, 0x11, true, waiting_served _ rfl, by decide, rfl⟩

/-- A command that executes while a byte of its own station is held, as R151 has it, with the END mark and without. -/
theorem witness_executes_held (e : Bool) : ∃ s : State, s.bus = .held 3 0x11 e ∧ Executes s 3 0x01 [] :=
  ⟨issue { node with bus := .held 3 0x11 e } 3 0x01 [], rfl, executes _ 3 _ _ rfl rfl⟩

/-- As in the worked example of R152: the held byte is stored at the execution and the intake is FILLING; the reply is posted (R151, R152). -/
theorem test_held_byte : (after (issue { node with bus := .held 3 0x11 false } 3 0x08 []) .clearStation).intakes[(3 : Station)] =
      .filling ⟨0x11, [], false, false⟩ ∧
    (after (issue { node with bus := .held 3 0x11 false } 3 0x08 []) .clearStation).bus = .write 3 ∧
    (after (issue { node with bus := .held 3 0x11 false } 3 0x08 []) .clearStation).holders[(3 : Station)] = some [0x00, 0x08] := by
  decide +kernel

theorem witness_address_byte :
    (∃ (s : State) (st : Station) (c : Command), s.bus = .write st ∧ s.intakes[st] = .filling c) ∧
    (∃ s : State, ∀ st, s.bus = .write st → ∀ c, s.intakes[st] ≠ .filling c) ∧
    (∃ (s : State) (b : BusStart), s.strapAddress ≠ some (addressTarget b.address)) ∧
    (∃ s : State, s.strap = 0) ∧ (∃ s : State, s.strap = 7 ∧ s.strap ≠ 0) ∧ 8 < (9#8).toNat ∧ (8#8).toNat = (8 : Station).val :=
  ⟨⟨{ node with bus := .write 3, intakes := put node.intakes 3 (.filling ⟨0x20, [], false, false⟩) }, 3, _, rfl,
      put_get_self _ 3 _⟩, ⟨node, by intro st h; cases h⟩, ⟨node, ⟨0xA4, 3, true⟩, by decide⟩,
    ⟨{ node with strap := 0 }, rfl⟩, ⟨{ node with strap := 7 }, rfl, by exact (by decide : (7 : BitVec 3) ≠ 0)⟩, by decide, by decide⟩

/-- Strap value 7 gives address 15; the address byte 0xF8 names it with the direction READ (R148, R180). -/
theorem test_strap : ({ node with strap := 7 } : State).strapAddress = some 15#4 ∧ ({ node with strap := 0 } : State).strapAddress = none ∧
    addressTarget 0xF8 = 15#4 ∧ addressDirection 0xF8 = 2#2 := by decide

/-- A reply of two bytes, taken by one byte and by two; and one in the middle of its READ. -/
theorem witness_read : (∃ (s : State) (st : Station) (rest : List Byte), s.bus = .read st rest ∧ rest ≠ [] ∧ 1 < rest.length ∧
    rest.length ≤ 2) ∧ ∃ s b st reply, Addressed s b st 2 ∧ s.endTransaction.holders[st].getD [0xFF] = reply ∧ reply ≠ [] ∧
    1 < reply.length ∧ reply.length ≤ 2 :=
  ⟨⟨{ node with bus := .read 8 [0, 0x12] }, 8, _, rfl, by decide, by decide, by decide⟩,
    { node with holders := put node.holders 8 (some [0, 0x12]) }, ⟨0x98, 8, true⟩, 8, [0, 0x12],
    ⟨by decide, rfl, by decide, by decide⟩, by decide, by decide, by decide, by decide⟩

theorem witness_poll : ∃ s b st, Addressed s b st 3 := ⟨node, _, 0, addressed.2.2⟩

/-! ### The execution of a command -/

theorem witness_served : ∃ (i : Instr) (s : State) (st : Station) (c : Command),
    s.served = some (st, c) ∧ takesCommand i c = true ∧ ∀ x e, s.bus ≠ .held st x e :=
  ⟨.readNode, waiting, 3, _, waiting_served _ rfl, by decide, by intro x e h; cases h⟩

/-- OPEN NODE without a node ID is refused. -/
theorem witness_refused : ∃ (i : Instr) (s t : State) (st : Station) (c : Command),
    s.served = some (st, c) ∧ takesCommand i c = true ∧ exec i s = .next t ∧ ∀ data, t.holders[st] ≠ some (0x00 :: data) := by
  have h := executes State.reset 0 0x11 [] rfl rfl
  refine ⟨.openNode, issue State.reset 0 0x11 [], _, 0, _, h.served, by decide,
    (runCommand_refused (ofRow := hasCode 0x11) (layout := argCount 0) (body := stationZero openNodeBody) (r := .wrongState) h rfl
      (by decide) rfl rfl : execOpenNode _ = _), ?_⟩
  intro data h
  have e := (put_get_self _ (0 : Station) (some [0x0A#8, 0x11#8])).symm.trans h
  simp at e

theorem witness_general_checks :
    (∃ (i : Instr) (s : State) (st : Station) (c : Command),
      s.served = some (st, c) ∧ takesCommand i c = true ∧ c.overlength = true) ∧
    (∃ (i : Instr) (s : State) (st : Station) (c : Command), s.served = some (st, c) ∧ takesCommand i c = true ∧
      c.overlength = false ∧ c.truncated = false ∧ namesCommand c.first = false) ∧
    (∃ (i : Instr) (s : State) (st : Station) (c : Command), s.served = some (st, c) ∧ takesCommand i c = true ∧
      c.overlength = false ∧ c.truncated = false ∧ namesCommand c.first = true ∧ lengthFits c.first c.rest = false) ∧
    (∃ (i : Instr) (s : State) (st : Station) (c : Command), s.served = some (st, c) ∧ takesCommand i c = true ∧
      c.overlength = false ∧ c.truncated = false ∧ namesCommand c.first = true ∧ lengthFits c.first c.rest = true ∧
      st ≠ 0 ∧ s.lockout[st] = true ∧ 0x10 ≤ c.first.toNat) := by
  refine ⟨⟨.readNode, { node with intakes := put node.intakes 3 (.full ⟨0x01, [], true, false⟩) }, 3, _,
    served_only 3 _ rfl, by decide, rfl⟩, ⟨.unknownCommand, issue node 3 0x09 [], 3, _, served_only 3 _ rfl, by decide, rfl, rfl,
    by decide⟩, ⟨.configureNode, issue node 3 0x10 [1], 3, _, served_only 3 _ rfl, by decide, rfl, rfl, by decide, by decide⟩,
    .configureNode, { issue node 3 0x10 [0, 1] with lockout := put node.lockout 3 true }, 3, _, served_only 3 _ rfl, by decide,
    rfl, rfl, by decide, by decide, by decide, put_get_self _ 3 _, by decide⟩

/-- The bytes beside the named ones, and the lowest and the highest code of station 0. -/
theorem witness_unknown_unpermitted :
    (∃ s st args, ∀ code ∈ ([0x00, 0x09, 0x17, 0x1D, 0x25, 0xFF] : List Byte), Executes (issue s st code args) st code args ∧
      namesCommand code = false) ∧
    ∀ x ∈ ([(.configureNode, 0x10, [0, 1]), (.adoptLightpath, 0x1C, List.replicate 12 0)] : List (Instr × Byte × List Byte)),
      Executes (issue node 3 x.2.1 x.2.2) 3 x.2.1 x.2.2 ∧ (3 : Station) ≠ 0 ∧ 0x10 ≤ x.2.1.toNat ∧ x.2.1.toNat ≤ 0x1C ∧
        lengthFits x.2.1 x.2.2 = true ∧ takesCommand x.1 ⟨x.2.1, x.2.2, false, false⟩ = true := by
  refine ⟨⟨node, 3, [], fun code h => ⟨executes _ _ _ _ rfl rfl, ?_⟩⟩, fun x h => ⟨executes _ _ _ _ rfl rfl, ?_⟩⟩
  · revert h; revert code; decide
  · revert h; revert x; decide

/-! ### Reading commands -/

theorem witness_read_node : ∃ s st, Executes s st 0x01 [] := ⟨_, 3, executes node 3 _ _ rfl rfl⟩

/-- The first selector kind that names none; by index at 0, 47 and 48; by the ID of a live record, of an ENDED one, and of none. -/
theorem witness_read_context :
    (Executes (issue node 3 0x02 (2 :: bytes32 0)) 3 0x02 (2 :: bytes32 0) ∧ 1 < (2 : Byte).toNat) ∧
    (∀ v ∈ ([0, 47, 48, 0xFFFFFFFF] : List Word32), Executes (issue node 3 0x02 (0 :: bytes32 v)) 3 0x02 (0 :: bytes32 v)) ∧
    (∃ s st v i c, Executes s st 0x02 (1 :: bytes32 v) ∧ TheLive s v i c) ∧
    (∃ (s : State) (st : Station) (v : Word32) (older : List CtxIx) (i : CtxIx) (newer : List CtxIx),
      Executes s st 0x02 (1 :: bytes32 v) ∧ NoneLive s v ∧ s.endedList = older ++ i :: newer ∧
      (∃ c ∈ s.context i, c.lightpathId = v) ∧ ∀ j ∈ newer, ∀ c ∈ s.context j, c.lightpathId ≠ v) ∧
    ∃ s st v, Executes s st 0x02 (1 :: bytes32 v) ∧ NoneLive s v ∧ ∀ j ∈ s.endedList, ∀ c ∈ s.context j, c.lightpathId ≠ v := by
  refine ⟨⟨executes _ _ _ _ rfl rfl, by decide⟩, fun v _ => executes _ _ _ _ rfl rfl, ⟨_, 3, _, 0, record .reserved (.head 6 2),
    executes (nodeWith (record .reserved (.head 6 2))) 3 _ _ rfl rfl, theLive _ rfl rfl⟩, ?_, ?_⟩
  · refine ⟨issue { nodeWith (record .ended (.head 6 2)) with endedList := [0] } 3 0x02 _, 3, 9001, [], 0, [],
      executes _ 3 _ _ rfl rfl, ?_, rfl, ⟨record .ended (.head 6 2), put_get_self _ 0 _, rfl⟩, by simp⟩
    intro i c hc hl
    by_cases h : i = 0
    · subst h
      have : c = record .ended (.head 6 2) := Option.some.inj (hc.symm.trans (put_get_self _ (0 : CtxIx) _))
      subst this; cases hl
    · exact absurd (hc.symm.trans (put_get_ne _ _ (Ne.symm h))) (by simp [node, State.reset])
  · exact ⟨issue node 3 0x02 _, 3, 9001, executes _ 3 _ _ rfl rfl, noneLive rfl _, by intro j h; cases h⟩

/-- The widest range and the last slot. -/
theorem witness_read_map : ∀ x ∈ ([(0, 384), (383, 1)] : List (Nat × Nat)),
    x.1 ≤ 383 ∧ 1 ≤ x.2 ∧ x.1 + x.2 ≤ 384 ∧
      Executes (issue node 3 0x04 (indexByte (15 : MapIx) :: nat16 x.1 ++ nat16 x.2)) 3 0x04
        (indexByte (15 : MapIx) :: nat16 x.1 ++ nat16 x.2) := by
  intro x h
  have : x.1 ≤ 383 ∧ 1 ≤ x.2 ∧ x.1 + x.2 ≤ 384 := by revert h; revert x; decide
  exact ⟨this.1, this.2.1, this.2.2, executes _ _ _ _ rfl rfl⟩

theorem witness_read_point_link : Executes (issue node 3 0x05 [indexByte (15 : PointIx)]) 3 0x05 [indexByte (15 : PointIx)] ∧
    ∀ o ∈ ([0, 1] : List Byte), Executes (issue node 3 0x06 [indexByte (7 : Degree), o]) 3 0x06 [indexByte (7 : Degree), o] :=
  ⟨executes _ _ _ _ rfl rfl, fun _ _ => executes _ _ _ _ rfl rfl⟩

theorem witness_station :
    (∃ s st, Executes s st 0x03 [] ∧ ∃ i : CtxIx, (s.changed[st])[i] = true ∧ ∀ j : CtxIx, j < i → (s.changed[st])[j] = false) ∧
    (∃ s st, Executes s st 0x03 [] ∧ ∀ i : CtxIx, (s.changed[st])[i] = false) ∧
    (∀ m ∈ ([15, 16] : List Byte), Executes (issue node 3 0x07 [m]) 3 0x07 [m]) ∧ ∃ s st, Executes s st 0x08 [] := by
  refine ⟨⟨issue { node with changed := put node.changed 3 (put node.changed[(3 : Station)] 47 true) } 3 0x03 [], 3,
    executes _ _ _ _ rfl rfl, 47, ?_, ?_⟩, ⟨issue node 3 0x03 [], 3, executes _ _ _ _ rfl rfl, ?_⟩,
    fun m _ => executes _ _ _ _ rfl rfl, issue node 3 0x08 [], 3, executes _ _ _ _ rfl rfl⟩
  · decide +kernel
  · decide +kernel
  · decide +kernel

/-! ### Configuring commands -/

/-- A node with a live record, and one without. -/
theorem witness_configure_live :
    (∃ s v, Executes s 0 0x10 (bytes16 v) ∧ v ≠ 0 ∧ ∃ i, ∃ c ∈ s.context i, c.state ≠ .ended) ∧
    ∃ s v, Executes s 0 0x10 (bytes16 v) ∧ v ≠ 0 ∧ ∀ i, ∀ c ∈ s.context i, c.state = .ended :=
  ⟨⟨_, 1, executes (nodeWith (record .probing (.head 6 2))) 0 _ _ rfl rfl, by decide, 0, _, put_get_self _ 0 _, by decide⟩,
    _, 1, executes node 0 _ _ rfl rfl, by decide, fun i c hc => by simp [State.context, issue, node, State.reset] at hc⟩

theorem witness_node_commands :
    (∀ v ∈ ([0, 1] : List Word16), Executes (issue node 0 0x10 (bytes16 v)) 0 0x10 (bytes16 v)) ∧
    (∃ s, Executes s 0 0x11 []) ∧ (∃ s, Executes s 0 0x12 []) ∧
    (∀ v ∈ ([1, 512] : List Word16), Executes (issue node 0 0x15 (bytes16 v)) 0 0x15 (bytes16 v) ∧
      (v.getLsbD 0 = true ∨ 512 ≤ v.toNat)) ∧
    Executes (issue node 0 0x15 (bytes16 510)) 0 0x15 (bytes16 510) ∧ (510#16).getLsbD 0 = false ∧ (510#16).toNat < 512 :=
  ⟨fun _ _ => executes _ _ _ _ rfl rfl, ⟨_, executes node 0 _ _ rfl rfl⟩, ⟨_, executes node 0 _ _ rfl rfl⟩,
    fun v h => ⟨executes _ _ _ _ rfl rfl, by simp at h; rcases h with rfl | rfl <;> decide⟩, executes _ _ _ _ rfl rfl, by decide, by decide⟩

theorem witness_set_timing : ∃ (s : State) (presence : Byte) (a b c d e f g : Word32),
    Executes s 0 0x13 (presence :: (bytes32 a ++ bytes32 b ++ bytes32 c ++ bytes32 d ++ bytes32 e ++ bytes32 f ++ bytes32 g)) :=
  ⟨_, 0x7F, 0, 1, 600000, 600001, 999, 5000, 100, executes node 0 _ _ rfl rfl⟩

/-- A limit at each bound and one past it, and one whose linear value is one short of the load. -/
theorem witness_set_point :
    (∀ (n presence g : Byte) (limit density : Word16), Executes
      (issue node 0 0x14 (n :: presence :: (bytes16 limit ++ bytes16 density ++ [g]))) 0 0x14
        (n :: presence :: (bytes16 limit ++ bytes16 density ++ [g]))) ∧
    15 < (16#8).toNat ∧ (15#8).toNat = (15 : PointIx).val ∧
    (∀ v ∈ ([251, -401] : List Int), (BitVec.ofInt 16 v).toInt < -400 ∨ 250 < (BitVec.ofInt 16 v).toInt) ∧
    (∃ (s : State) (p : PointIx), forward (-400) < (s.point p).load ∧ -400 ≤ (BitVec.ofInt 16 (-400)).toInt) ∧
    ∀ v ∈ ([250, -400] : List Int), -400 ≤ (BitVec.ofInt 16 v).toInt ∧ (BitVec.ofInt 16 v).toInt ≤ 250 ∧
      (node.point 15).load ≤ forward (BitVec.ofInt 16 v).toInt := by
  refine ⟨fun _ _ _ _ _ => executes _ _ _ _ rfl rfl, by decide, by decide, by decide,
    ⟨nodeAt 15 { Point.reset with load := 1001 }, 15, by decide +kernel, by decide⟩, by decide +kernel⟩

theorem witness_link_control :
    (∀ (x : LinkState) (order : Byte), Executes
      (issue (node.modLink 7 fun l => { l with state := x }) 0 0x16 [indexByte (7 : Degree), order]) 0 0x16
        [indexByte (7 : Degree), order]) ∧
    ∀ x : LinkState, ((node.modLink 7 fun l => { l with state := x }).link 7).state = x :=
  ⟨fun _ _ => executes _ _ _ _ rfl rfl, fun x => by rw [State.modLink_link_self]⟩

/-- The whole map, without an occupied slot; and the last slot, LIT. -/
theorem witness_bar :
    (∀ bar : Bool, ∃ (s : State) (m : MapIx) (first count : Nat), first ≤ 383 ∧ 1 ≤ count ∧ first + count = 384 ∧
      Executes s 0 (if bar then 0x18 else 0x19) (indexByte m :: nat16 first ++ nat16 count) ∧
      ∀ k, first ≤ k → k < first + count → s.slotAt m k = .free ∨ s.slotAt m k = .barred) ∧
    ∀ bar : Bool, ∃ (s : State) (m : MapIx) (first count : Nat), first = 383 ∧ 1 ≤ count ∧ first + count ≤ 384 ∧
      Executes s 0 (if bar then 0x18 else 0x19) (indexByte m :: nat16 first ++ nat16 count) ∧
      ∃ k, first ≤ k ∧ k < first + count ∧ (∃ i, s.slotAt m k = .held i ∨ s.slotAt m k = .lit i) ∧
        ∀ j, first ≤ j → j < k → s.slotAt m j = .free ∨ s.slotAt m j = .barred := by
  refine ⟨fun bar => ⟨_, 15, 0, 384, by omega, by omega, rfl, executes node 0 _ _ rfl rfl, fun k _ hk => .inl ?_⟩,
    fun bar => ⟨issue (node.writeRun [15] ⟨383, 1⟩ (.lit 4)) 0 (if bar then 0x18 else 0x19) _, 15, 383, 1, rfl, by omega, by omega,
      executes _ 0 _ _ rfl rfl, 383, by omega, by omega, ⟨4, .inr ?_⟩, fun j h1 h2 => absurd h1 (by omega)⟩⟩
  · exact slotAt_free rfl _ (by omega)
  · exact (node.writeRun_slotAt [15] ⟨383, 1⟩ (.lit 4) 15 (by omega : 383 < 384)).trans (by decide)

/-- The last run of a map, at a point with a request, at one whose lock is held, and at one that is free. -/
theorem witness_force_dark : ∃ (p : PointIx) (r : Run), r.isSlotRun = true ∧
    (∀ x ∈ ([(.pending ⟨0, 2⟩, none), (.none, some 0), (.none, none)] : List (Service × Option CtxIx)), ∃ s : State,
      Executes s 0 0x1A (indexByte p :: nat16 r.first ++ [byte r.width]) ∧
      (∀ k, r.covers k = true → s.slotAt (mapOfPoint p) k = .free ∨ s.slotAt (mapOfPoint p) k = .barred) ∧
      (s.point p).service = x.1 ∧ (s.point p).holder = x.2) := by
  refine ⟨15, ⟨368, 16⟩, by decide, fun x _ => ⟨issue (nodeAt 15 { Point.reset with service := x.1, holder := x.2 }) 0 0x1A _,
    executes _ 0 _ _ rfl rfl, fun k hk => .inl (slotAt_free rfl _ ?_), ?_, ?_⟩⟩
  · simp [Run.covers] at hk; omega
  · rw [nodeAt_point]
  · rw [nodeAt_point]

/-- Each point names the map of its side (R136), at both ends of each range. -/
theorem test_map_of_point : mapOfPoint 0 = 8 ∧ mapOfPoint 7 = 15 ∧ mapOfPoint 8 = 0 ∧ mapOfPoint 15 = 7 := by decide

theorem witness_rereference : ∃ (s : State) (p : PointIx), Executes s 0 0x1B [indexByte p] := ⟨_, (15 : PointIx), executes node 0 _ _ rfl rfl⟩

/-! ### Lightpath commands -/

/-- A tail adopted on the last run of its map, at a load that leaves just room and at one that leaves one too little. -/
theorem witness_adopt : ∃ (sides : Sides) (id : Word32) (run : Run) (attenuation : Nat) (window : Byte) (i : CtxIx),
    run.isSlotRun = true ∧ attenuation = 250 ∧
    ∀ load ∈ ([forward 200 - forward 51, forward 200 - forward 51 + 1] : List Nat), ∃ s : State,
      Executes s 0 0x1C ([sides.role.code] ++ bytes32 id ++ [sides.ingressByte, sides.egressByte] ++ nat16 run.first ++
        [byte run.width, byte attenuation, window]) ∧ s.nodeId ≠ 0 ∧ NoneLive s id ∧ Chooses s i ∧
      FreeOn s sides.mapsUsed run ∧ (s.point sides.point).service = .none ∧ (s.point sides.point).load = load ∧
      (s.point sides.point).limit = 200 ∧ targetOf (s.point sides.point).density run.width + 1 = 51 := by
  refine ⟨.tail 7 15, 0, ⟨368, 16⟩, 250, 0, 0, by decide, rfl, fun load _ =>
    ⟨issue (nodeAt 15 { Point.reset with load := load }) 0 0x1C _, executes _ 0 _ _ rfl rfl, ?_, noneLive rfl _,
      chooses rfl, freeOn rfl _ _ (by decide), ?_⟩⟩
  · exact (by decide : (101 : Word16) ≠ 0)
  · have e := nodeAt_point 15 { Point.reset with load := load } 0 0x1C
    rw [show (Sides.tail 7 15).point = 15 from rfl, e]
    exact ⟨rfl, rfl, rfl, (by decide : targetOf (-70) 16 + 1 = 51)⟩

/-- Station 0 and the degree's station; a fixed run, the lowest and the highest; the route of most and of fewest entries. -/
theorem witness_begin :
    ∀ x ∈ ([(0, 382, 382, 30), (8, 0, 0xFFFE, 0), (8, 382, 0xFFFF, 0)] : List (Station × Nat × Word16 × Nat)),
    ∃ (s : State) (id : Word32) (addPort : Fin 16) (width window step flags : Byte) (e : Degree) (middle : List Byte) (drop : Byte)
      (i : CtxIx) (route : List Byte),
      route = indexByte e :: middle ++ [drop] ∧ route.length = x.2.2.2 + 2 ∧ route.length ≤ 32 ∧ (∀ x ∈ middle, x.toNat ≤ 7) ∧
      drop.toNat ≤ 15 ∧
      Executes s x.1 0x20 (bytes32 id ++ [indexByte addPort, byte route.length] ++ bytes16 x.2.2.1 ++
        [width, window, step, flags] ++ route) ∧
      (x.1 = 0 ∨ x.1.val = e.val + 1) ∧ s.nodeOpen = true ∧ width.toNat = 2 ∧ flags.toNat ≤ 1 ∧ NoneLive s id ∧ Chooses s i ∧
      (s.link e).state = .up ∧ FreeOn s [egressMap e] ⟨x.2.1, width.toNat⟩ ∧ x.2.1 + width.toNat ≤ 384 ∧
      ((x.2.2.1.toNat = x.2.1) ∨
        (x.2.2.1 = 0xFFFE#16 ∧ ∀ g < x.2.1, ¬FreeOn s [egressMap e] ⟨g, width.toNat⟩) ∨
        (x.2.2.1 = 0xFFFF#16 ∧ ∀ g, x.2.1 < g → g + width.toNat ≤ 384 → ¬FreeOn s [egressMap e] ⟨g, width.toNat⟩)) := by
  intro x hx
  refine ⟨issue node x.1 0x20 _, 0, 15, 2, 0, 255, 1, 7, List.replicate x.2.2.2 7, 15, 0, _, rfl, by simp, ?_,
    fun y hy => by rw [List.eq_of_mem_replicate hy]; decide, by decide, executes _ _ _ _ rfl rfl, ?_, rfl, by decide,
    by decide, noneLive rfl _, chooses rfl, (by decide +kernel : (node.link 7).state = .up), freeOn rfl _ _ ?_, ?_, ?_⟩
  all_goals simp only [List.mem_cons, List.not_mem_nil, or_false] at hx
  all_goals rcases hx with rfl | rfl | rfl
  all_goals first
    | decide
    | exact .inl (by decide)
    | exact .inr (.inl ⟨rfl, fun g hg => absurd hg (Nat.not_lt_zero g)⟩)
    | exact .inr (.inr ⟨rfl, fun g hg h => absurd h (by simp at hg ⊢; omega)⟩)

/-- The head in RESERVED without ramp on clear, one that is not, and no context; the head IN_SERVICE, a tail, and no context. -/
theorem witness_head_commands :
    (∀ (code : Byte) (v : Word32), ∃ s st, Executes s st code (bytes32 v) ∧ NoneLive s v) ∧
    ∀ (code : Byte) (st : Station), ∀ c ∈ [record .reserved (.head 15 7), record .probing (.head 0 0), record .inService (.head 15 7),
      record .inService (.tail 7 15), record .reserved (.transit 0 7)], ∃ s, Executes s st code (bytes32 9001) ∧ TheLive s 9001 0 c := by
  refine ⟨fun code v => ⟨_, 3, executes node 3 code _ rfl rfl, noneLive rfl _⟩, fun code st c hc =>
    ⟨_, executes (nodeWith c) st code _ rfl rfl, ?_⟩⟩
  have : c.lightpathId = 9001 ∧ c.live = true := by
    simp only [List.mem_cons, List.not_mem_nil, or_false] at hc
    rcases hc with rfl | rfl | rfl | rfl | rfl <;> exact ⟨rfl, rfl⟩
  exact this.1 ▸ theLive c rfl this.2

/-- An issuer that may abort and ones that may not; records that take the abort without effect and ones that do not. -/
theorem witness_abort_command :
    (∃ s st id, Executes s st 0x23 (bytes32 id) ∧ NoneLive s id) ∧
    ∀ x ∈ ([(3, record .inService (.tail 7 15)), (4, record .passed (.head 0 0)), (3, record (.retiring .hard .queued) (.head 0 0)),
        (3, { record (.retiring .gradual .queued) (.head 0 0) with ending := some ⟨.timeout, .timeout, 101, some 0, none, some .passed⟩ }),
        (0, { record (.ramping .settling 2) (.head 0 0) with abortPending := some ⟨.abortedLocal, .abortedLocal, 101, some 0, none, none⟩ }),
        (3, record .probing (.head 0 0)), (0, record .inService (.tail 7 15))] : List (Station × Context)),
      ∃ s, Executes s x.1 0x23 (bytes32 9001) ∧ TheLive s 9001 0 x.2 := by
  refine ⟨⟨_, 3, 0, executes node 3 0x23 _ rfl rfl, noneLive rfl _⟩, fun x hx => ⟨_, executes (nodeWith x.2) x.1 0x23 _ rfl rfl, ?_⟩⟩
  have : x.2.lightpathId = 9001 ∧ x.2.live = true := by
    simp only [List.mem_cons, List.not_mem_nil, or_false] at hx
    rcases hx with rfl | rfl | rfl | rfl | rfl | rfl | rfl <;> exact ⟨rfl, rfl⟩
  exact this.1 ▸ theLive x.2 rfl this.2

/-- A FREE record, one that is not ENDED, and an ENDED one, for its owner, for station 0 and for another. -/
theorem witness_release :
    (∃ s st i, Executes s st 0x24 [indexByte i] ∧ s.context i = none) ∧
    (∃ s st i c, Executes s st 0x24 [indexByte i] ∧ s.context i = some c ∧ c.state ≠ .ended) ∧
    ∀ st ∈ ([3, 0, 4] : List Station), ∃ s c, Executes s st 0x24 [indexByte (0 : CtxIx)] ∧ s.context 0 = some c ∧ c.state = .ended ∧
      c.owner = 3 :=
  ⟨⟨issue node 3 0x24 _, 3, (47 : CtxIx), executes _ _ _ _ rfl rfl, by decide +kernel⟩,
    ⟨issue (nodeWith (record .probing (.head 0 0))) 3 0x24 _, 3, (0 : CtxIx), _, executes _ _ _ _ rfl rfl, context_of rfl, by decide⟩,
    fun st _ => ⟨issue (nodeWith (record .ended (.head 0 0))) st 0x24 _, _, executes _ _ _ _ rfl rfl, context_of rfl, rfl, rfl⟩⟩

/-- The first value past each range, with the command that carries it. -/
theorem witness_bad_arguments :
    (∀ x ∈ ([(0x05, [16]), (0x06, [8, 0]), (0x06, [7, 2]), (0x16, [8, 1]), (0x16, [7, 0]), (0x16, [7, 3]), (0x1B, [16]), (0x24, [48])] :
        List (Byte × List Byte)), Executes (issue node 0 x.1 x.2) 0 x.1 x.2) ∧
    (∀ code ∈ ([0x04, 0x18, 0x19] : List Byte), ∀ x ∈ ([(16, 0, 1), (15, 384, 1), (15, 0, 0), (15, 383, 2)] :
        List (Byte × Word16 × Word16)),
      Executes (issue node 0 code (x.1 :: bytes16 x.2.1 ++ bytes16 x.2.2)) 0 code (x.1 :: bytes16 x.2.1 ++ bytes16 x.2.2) ∧
      (15 < x.1.toNat ∨ 383 < x.2.1.toNat ∨ x.2.2 = 0 ∨ 384 < x.2.1.toNat + x.2.2.toNat)) ∧
    ∀ x ∈ ([(16, 0, 2), (15, 0, 1), (15, 0, 17), (15, 369, 16)] : List (Byte × Word16 × Byte)),
      Executes (issue node 0 0x1A (x.1 :: bytes16 x.2.1 ++ [x.2.2])) 0 0x1A (x.1 :: bytes16 x.2.1 ++ [x.2.2]) ∧
      (15 < x.1.toNat ∨ (⟨x.2.1.toNat, x.2.2.toNat⟩ : Run).isSlotRun = false) := by
  refine ⟨fun _ _ => executes _ _ _ _ rfl rfl, fun _ _ x h => ⟨executes _ _ _ _ rfl rfl, ?_⟩,
    fun x h => ⟨executes _ _ _ _ rfl rfl, ?_⟩⟩ <;>
  simp only [List.mem_cons, List.not_mem_nil, or_false] at h <;> rcases h with rfl | rfl | rfl | rfl <;> decide

/-- The last slot of the last run, HELD. -/
theorem witness_force_dark_busy : ∃ (s : State) (p : PointIx) (r : Run) (k : Nat), r.isSlotRun = true ∧
    Executes s 0 0x1A (indexByte p :: nat16 r.first ++ [byte r.width]) ∧ r.covers k = true ∧
    (∃ i, s.slotAt (mapOfPoint p) k = .held i ∨ s.slotAt (mapOfPoint p) k = .lit i) ∧
    ∀ j, r.covers j = true → j < k → s.slotAt (mapOfPoint p) j = .free ∨ s.slotAt (mapOfPoint p) j = .barred := by
  refine ⟨issue (node.writeRun [7] ⟨383, 1⟩ (.held 4)) 0 0x1A _, 15, ⟨368, 16⟩, 383, by decide, executes _ 0 _ _ rfl rfl, by decide,
    ⟨4, .inl ((node.writeRun_slotAt [7] ⟨383, 1⟩ (.held 4) 7 (by omega : 383 < 384)).trans (by decide))⟩, fun j _ hk => .inl ?_⟩
  have out : ¬(⟨383, 1⟩ : Run).covers j = true := by simp [Run.covers]; omega
  exact (node.writeRun_slotAt [7] ⟨383, 1⟩ (.held 4) 7 (by omega)).trans ((if_neg fun h => out h.2).trans (slotAt_free rfl _ (by omega)))

/-- A state that each check of ADOPT and BEGIN refuses: no node ID, a closed node, a live ID, a full table, a request that overlaps, a slot
that is taken, a link that is down, and a map without a FREE run; and arguments out of range. -/
theorem witness_adopt_begin_states (st : Station) (code : Byte) (args : List Byte) :
    (∃ s, Executes s st code args ∧ s.nodeId = 0 ∧ s.nodeOpen = false) ∧
    (∃ s, Executes s st code args ∧ s.nodeId ≠ 0 ∧ s.nodeOpen = true ∧ ¬NoneLive s 9001) ∧
    (∃ s, Executes s st code args ∧ s.nodeId ≠ 0 ∧ s.nodeOpen = true ∧ NoneLive s 9001 ∧ (∀ i, s.context i ≠ none) ∧ s.endedList = []) ∧
    (∃ s, Executes s st code args ∧ s.nodeId ≠ 0 ∧ NoneLive s 9001 ∧ Chooses s 0 ∧ (s.point 15).service = .active ⟨382, 2⟩) ∧
    (∃ s, Executes s st code args ∧ s.nodeId ≠ 0 ∧ s.nodeOpen = true ∧ NoneLive s 9001 ∧ Chooses s 0 ∧
      (s.point 15).service = .pending ⟨380, 2⟩ ∧
      (s.link 7).state = .up ∧ ∀ m k, k < 384 → s.slotAt m k = if m = 15 ∧ k = 383 then .barred else .free) ∧
    (∃ s, Executes s st code args ∧ s.nodeOpen = true ∧ NoneLive s 9001 ∧ Chooses s 0 ∧ (s.link 7).state ≠ .up) ∧
    ∃ s, Executes s st code args ∧ s.nodeOpen = true ∧ NoneLive s 9001 ∧ Chooses s 0 ∧ (s.link 7).state = .up ∧
      ∀ f w, 2 ≤ w → f + w ≤ 384 → ¬FreeOn s [15] ⟨f, w⟩ := by
  refine ⟨⟨_, executes State.reset st _ _ rfl rfl, rfl, rfl⟩,
    ⟨_, executes (nodeWith (record .probing (.head 0 0))) st _ _ rfl rfl, by exact (by decide : (101 : Word16) ≠ 0), rfl,
      fun h => h 0 _ (context_of rfl) rfl rfl⟩,
    ⟨_, executes { node with contexts := Vector.replicate 48 (some { record .probing (.head 0 0) with lightpathId := 1 }) } st _ _
      rfl rfl, by exact (by decide : (101 : Word16) ≠ 0), rfl, ?_, ?_, rfl⟩,
    ⟨_, executes (nodeAt 15 { Point.reset with service := .active ⟨382, 2⟩ }) st _ _ rfl rfl,
      by exact (by decide : (101 : Word16) ≠ 0), noneLive rfl _, chooses rfl, by rw [nodeAt_point]⟩,
    ⟨_, executes { node.changeRun (fun _ => .barred) ⟨383, 1⟩ 15 with
        points := put node.points 15 { Point.reset with service := .pending ⟨380, 2⟩ } } st _ _ rfl rfl,
      by exact (by decide : (101 : Word16) ≠ 0), rfl, noneLive rfl _, chooses rfl,
      congrArg Point.service (put_get_self node.points (15 : PointIx) _),
      by simp [issue, State.link, State.changeRun, node],
      fun m k hk => ?_⟩,
    ⟨_, executes { node with links := Vector.replicate 8 (Link.reset false) } st _ _ rfl rfl, rfl, noneLive rfl _, chooses rfl,
      by exact (by decide +kernel : ((Vector.replicate 8 (Link.reset false))[(7 : Degree)]).state ≠ .up)⟩,
    _, executes { node with maps := Vector.replicate 16 (Vector.replicate 384 .barred) } st _ _ rfl rfl, rfl, noneLive rfl _,
    chooses rfl, by exact (by decide +kernel : (node.link 7).state = .up), fun f w h1 h2 h => ?_⟩
  · intro i c hc _
    simp [issue, State.context] at hc
    rw [← hc]; simp
  · intro i; simp [issue, State.context]
  · refine (node.changeRun_slotAt (fun _ => .barred) ⟨383, 1⟩ 15 m hk).trans ?_
    have e : ((⟨383, 1⟩ : Run).covers k = true) = (k = 383) := by simp [Run.covers]; omega
    rw [slotAt_free (s := node) rfl m hk]; simp only [e, eq_comm (a := (15 : MapIx))]
  · have := h f (by simp [Run.covers]; omega) 15 (by simp)
    rw [State.slotAt_of_lt _ _ (by omega)] at this
    simp [issue] at this

/-- Reserved bits set in the flags byte, whichever value the free value takes; and a run that overlaps no request at 380 and 381. -/
theorem witness_begin_flags : 1 < (2#8).toNat ∧
    (Config.beginReservedFlagsRefused 2 = true ∨ Config.beginReservedFlagsRefused 2 = false) ∧
    ∀ q, ¬((⟨380, 2⟩ : Run).covers q = true ∧ (⟨382, 2⟩ : Run).covers q = true) := by
  refine ⟨by decide, by cases Config.beginReservedFlagsRefused 2 <;> simp, fun q => ?_⟩
  simp [Run.covers]; omega

/-- Arguments that fit and that do not, at the bounds. -/
theorem witness_adopt_begin_arguments :
    (∀ x : Byte × Byte × Byte, x ∈ ([(0, 0, 0), (1, 16, 0), (3, 8, 0)] : List (Byte × Byte × Byte)) →
      ¬∃ s : Sides, x.1 = s.role.code ∧ x.2.1 = s.ingressByte ∧ x.2.2 = s.egressByte) ∧
    (⟨369, 16⟩ : Run).isSlotRun = false ∧ 250 < (251#8).toNat ∧ (⟨382, 2⟩ : Run).isSlotRun = true ∧ (250#8).toNat ≤ 250 ∧
    (∀ route ∈ ([[7, 15], List.replicate 31 7 ++ [15]] : List (List Byte)), ∃ len : Byte, route.length = len.toNat ∧
      2 ≤ len.toNat ∧ len.toNat ≤ 32 ∧ (∀ x ∈ route.dropLast, x.toNat ≤ 7) ∧ (route.getLastD 0).toNat ≤ 15 ∧
      route.head? = some (indexByte (7 : Degree)) ∧ ((8 : Station) = 0 ∨ ∃ e ∈ route.head?, e.toNat + 1 = (8 : Station).val) ∧
      ¬((7 : Station) = 0 ∨ ∃ e ∈ route.head?, e.toNat + 1 = (7 : Station).val)) := by
  refine ⟨?_, by decide, by decide, by decide, by decide, ?_⟩
  · rintro x hx ⟨s, h1, h2, h3⟩
    simp only [List.mem_cons, List.not_mem_nil, or_false] at hx
    rcases hx with rfl | rfl | rfl <;> cases s <;> simp [Sides.role, Role.code, Sides.ingressByte, Sides.egressByte] at h1 h2 h3
    · rename_i a e; revert h2; revert a; decide
    · rename_i a e; revert h2; revert a; decide
  · intro route h
    simp only [List.mem_cons, List.not_mem_nil, or_false] at h
    rcases h with rfl | rfl
    · exact ⟨2, by decide, by decide, by decide, by decide, by decide, by decide, by decide, by decide⟩
    · exact ⟨32, by decide +kernel, by decide, by decide, by decide +kernel, by decide +kernel, by decide +kernel, by decide +kernel,
        by decide +kernel⟩

/-! ### Peer links -/

/-- The node with one link given. -/
def linked (d : Degree) (l : Link) : State := { node with links := put node.links d l }

theorem linked_link (d : Degree) (l : Link) : (linked d l).link d = l := put_get_self _ d l

/-- The four states of a link; a full receive queue and one with room; a frame to send. -/
theorem witness_links :
    (∀ x : LinkState, ∃ (s : State) (d : Degree), (s.link d).state = x ∧ (s.link d).txDrops = 65535) ∧
    (∀ x ∈ [LinkState.up, .down], ∀ n ∈ [3, 4], ∃ (s : State) (d : Degree), (s.link d).state = x ∧ (s.link d).rx.length = n) ∧
    (∀ x ∈ [LinkState.up, .draining], ∃ (s : State) (d : Degree) (f : Frame), (s.link d).tx = f :: [] ∧ (s.link d).state = x) ∧
    ∃ (s : State) (d : Degree), (s.link d).tx = [] := by
  refine ⟨fun x => ⟨linked 7 { Link.reset true with state := x, txDrops := 65535 }, 7, ?_, ?_⟩,
    fun x _ n _ => ⟨linked 7 { Link.reset true with state := x, rx := List.replicate n ⟨[], .truncated⟩ }, 7, ?_, ?_⟩,
    fun x _ => ⟨linked 7 { Link.reset true with state := x, tx := [⟨101, 1, .light⟩] }, 7, ⟨101, 1, .light⟩, ?_, ?_⟩,
    node, 0, by decide +kernel⟩
  all_goals rw [linked_link]
  exact List.length_replicate

/-- A frame short of two bytes, one short of its length, one declared below 3, one whose check is right and one whose check is not. -/
theorem witness_frame_status :
    ([1] : List Byte).length < 2 ∧ (2 : Nat) < (10#8).toNat ∧ (3#8).toNat < 4 ∧ (3#8).toNat ≤ 3 ∧
    (∃ text hi lo, [4, 4] ++ [hi, lo] = text ++ [hi, lo] ∧ text.length + 2 = (4#8).toNat ∧ 2 ≤ text.length ∧ word16 hi lo = frameCheck text) ∧
    word16 0 0 ≠ frameCheck [4, 4] := by
  refine ⟨by decide, by decide, by decide, by decide, ⟨[4, 4], (frameCheck [4, 4] >>> 8).setWidth 8, (frameCheck [4, 4]).setWidth 8,
    rfl, by decide, by decide, by decide +kernel⟩, by decide +kernel⟩

/-- A frame of each kind that is short of its envelope, that has sender 0 or this node's ID, or whose fields are malformed at a bound. -/
theorem witness_malformed :
    (∀ k ∈ ([1, 2, 3, 4, 5, 6, 7] : List Byte), ∃ (s : State) (f : RxFrame), (s.link 7).rx = [f] ∧ f.status = .ok ∧
      f.bytes.getD 0 0 = k ∧ f.bytes.length = 9) ∧
    (∀ x ∈ ([(1, [31, 1, 127, 2, 1, 1, 31]), (1, [1, 1, 128, 2, 1, 1, 2, 0, 0]), (1, [1, 0, 0, 17, 1, 1, 2, 0, 0]),
        (1, [1, 0, 0, 2, 1, 1, 2, 8, 0]), (1, [1, 0, 0, 2, 1, 1, 2, 0, 16]), (2, [0]), (2, [32]), (3, [6, 0, 1, 1, 255, 255]),
        (3, [5, 0, 1, 1, 1, 128]), (3, [1, 0, 1, 1, 0, 0]), (3, [5, 0, 0, 1, 0, 0]), (4, [0]), (5, [0]), (6, [0x11, 0, 1]),
        (6, [0x1A, 0, 1]), (6, [0x12, 0, 0]), (7, [0])] : List (Byte × List Byte)), fieldsMalformed x.1 x.2) ∧
    ∀ k, ∀ sender ∈ ([0, 101, 102] : List Word16), ∀ fields, ∃ (s : State) (f : RxFrame), (s.link 7).rx = [f] ∧ f.status = .ok ∧
      s.nodeId = 101 ∧ f.bytes = [k, 10] ++ bytes16 sender ++ bytes32 9001 ++ fields ++ [0, 0] := by
  refine ⟨fun k _ => ⟨linked 7 { Link.reset true with rx := [⟨k :: List.replicate 8 0, .ok⟩] }, _, by rw [linked_link], rfl, rfl, rfl⟩,
    ?_, fun k sender _ fields => ⟨linked 7 { Link.reset true with rx := [⟨_, .ok⟩] }, _, by rw [linked_link], rfl, rfl, rfl⟩⟩
  intro x hx
  simp only [List.mem_cons, List.not_mem_nil, or_false] at hx
  rcases hx with rfl | rfl | rfl | rfl | rfl | rfl | rfl | rfl | rfl | rfl | rfl | rfl | rfl | rfl | rfl | rfl | rfl <;>
    simp [fieldsMalformed]

/-- A damaged frame, one of kind 0 and one of kind 8, and one of each kind for no live context. -/
theorem witness_untaken :
    (∃ (s : State) (d : Degree) (f : RxFrame) (rest : List RxFrame), (s.link d).rx = f :: rest ∧ f.status ≠ .ok) ∧
    (∀ k ∈ ([0, 8] : List Byte), ∃ (s : State) (d : Degree) (f : RxFrame) (rest : List RxFrame), (s.link d).rx = f :: rest ∧
      f.status = .ok ∧ (f.bytes.getD 0 0 = 0 ∨ 7 < (f.bytes.getD 0 0).toNat) ∧ f.bytes = [k]) ∧
    ∀ b ∈ [FrameBody.clear 1, .refuse .slotBusy 102 31 (some 383), .light, .lit, .abort .timeout 102, .teardown],
      ∃ (s : State) (f : RxFrame) (frame : Frame), (s.link 2).rx = [f] ∧ f.status = .ok ∧
        parseFrame s.nodeId f.bytes = some frame ∧ NoneLive s frame.lightpathId ∧ frame.body = b := by
  refine ⟨⟨linked 7 { Link.reset true with rx := [⟨[], .truncated⟩] }, 7, ⟨[], .truncated⟩, [], by rw [linked_link], by decide⟩,
    fun k hk => ⟨linked 7 { Link.reset true with rx := [⟨[k], .ok⟩] }, 7, ⟨[k], .ok⟩, [], by rw [linked_link], rfl, ?_, rfl⟩,
    fun b hb => ⟨arrived node 9001 b, ⟨(⟨102, 9001, b⟩ : Frame).encode, .ok⟩, ⟨102, 9001, b⟩, by simp only [arrived, State.modLink_link_self], rfl, ?_, noneLive rfl _, rfl⟩⟩
  · simp only [List.mem_cons, List.not_mem_nil, or_false] at hk
    rcases hk with rfl | rfl <;> decide
  · revert hb; revert b; decide +kernel

/-! ### The turn-up protocol -/

/-- A transit with the longest route and the last run, and a tail with the shortest. -/
theorem witness_accepted_probe :
    (∃ (s : State) (d : Degree) (n : Word16) (id : Word32) (k f w window step len : Nat) (route : List Byte) (i : CtxIx) (e : Degree),
      Heads s d ⟨n, id, .probe k f w window step len route⟩ ∧ s.nodeOpen = true ∧ NoneLive s id ∧ Chooses s i ∧
      k + 1 < len ∧ len = 32 ∧ (route.getD k 0).toNat = e.val ∧ e ≠ d ∧ (s.link e).state = .up ∧
      FreeOn s [ingressMap d, egressMap e] ⟨f, w⟩) ∧
    ∃ (s : State) (d : Degree) (n : Word16) (id : Word32) (k f w window step len : Nat) (route : List Byte) (i : CtxIx) (drop : Fin 16),
      Heads s d ⟨n, id, .probe k f w window step len route⟩ ∧ s.nodeOpen = true ∧ NoneLive s id ∧ Chooses s i ∧
      k + 1 = len ∧ len = 2 ∧ (route.getD k 0).toNat = drop.val ∧ FreeOn s [ingressMap d] ⟨f, w⟩ := by
  refine ⟨⟨arrived node 9001 (.probe 30 368 16 20 30 32 (List.replicate 32 7)), 2, 102, 9001, 30, 368, 16, 20, 30, 32, _, 0, 7,
      heads node 9001 _ (by decide +kernel), rfl, noneLive rfl _, chooses rfl, by decide, rfl, by decide, by decide,
      by decide +kernel, freeOn rfl _ _ (by decide)⟩,
    arrived node 9001 (.probe 1 0 2 1 1 2 [2, 15]), 2, 102, 9001, 1, 0, 2, 1, 1, 2, _, 0, 15,
      heads node 9001 _ (by decide +kernel), rfl, noneLive rfl _, chooses rfl, rfl, rfl, by decide, freeOn rfl _ _ (by decide)⟩

/-- The PROBE of the transit; and of the tail. -/
def transitProbe : FrameBody := .probe 30 368 16 20 30 32 (List.replicate 32 7)
def tailProbe : FrameBody := .probe 1 368 16 20 30 2 [2, 15]

theorem parse_probes (b : FrameBody) (h : b ∈ [transitProbe, tailProbe]) :
    parseFrame 101 (⟨102, 9001, b⟩ : Frame).encode = some ⟨102, 9001, b⟩ := by revert h; revert b; decide +kernel

/-- A closed node; a live ID; a full table without an ENDED record; a link that is down; a last slot that is BARRED, on the egress
map of a transit and on the ingress map of a tail. -/
theorem witness_refused_probe :
    (∃ s, Heads s 2 ⟨102, 9001, transitProbe⟩ ∧ s.nodeOpen = false) ∧
    (∃ s, Heads s 2 ⟨102, 9001, transitProbe⟩ ∧ s.nodeOpen = true ∧ ¬NoneLive s 9001) ∧
    (∃ s, Heads s 2 ⟨102, 9001, transitProbe⟩ ∧ s.nodeOpen = true ∧ NoneLive s 9001 ∧ (∀ i, s.context i ≠ none) ∧ s.endedList = []) ∧
    (∃ s, Heads s 2 ⟨102, 9001, transitProbe⟩ ∧ s.nodeOpen = true ∧ NoneLive s 9001 ∧ Chooses s 0 ∧ (s.link 7).state ≠ .up) ∧
    (∃ s, Heads s 2 ⟨102, 9001, transitProbe⟩ ∧ s.nodeOpen = true ∧ NoneLive s 9001 ∧ Chooses s 0 ∧ (s.link 7).state = .up ∧
      s.slotAt (egressMap 7) 383 ≠ .free ∧ ∀ j, 368 ≤ j → j < 383 → s.slotAt (ingressMap 2) j = .free ∧ s.slotAt (egressMap 7) j = .free) ∧
    ∃ s, Heads s 2 ⟨102, 9001, tailProbe⟩ ∧ s.nodeOpen = true ∧ NoneLive s 9001 ∧ Chooses s 0 ∧
      s.slotAt (ingressMap 2) 383 ≠ .free ∧ ∀ j, 368 ≤ j → j < 383 → s.slotAt (ingressMap 2) j = .free := by
  have p1 := parse_probes transitProbe (by decide)
  have p2 := parse_probes tailProbe (by decide)
  refine ⟨⟨_, heads { node with nodeOpen := false } 9001 _ p1, rfl⟩,
    ⟨_, heads (nodeWith (record .probing (.head 0 0))) 9001 _ p1, rfl, fun h => h 0 _ (context_of rfl) rfl rfl⟩,
    ⟨_, heads { node with contexts := Vector.replicate 48 (some { record .probing (.head 0 0) with lightpathId := 1 }) } 9001 _ p1,
      rfl, ?_, ?_, rfl⟩,
    ⟨_, heads { node with links := Vector.replicate 8 (Link.reset false) } 9001 _ p1, rfl, noneLive rfl _, chooses rfl, ?_⟩,
    ⟨_, heads (node.writeRun [egressMap 7] ⟨383, 1⟩ .barred) 9001 _ p1, rfl, noneLive rfl _, chooses rfl, ?_, ?_, fun j h1 h2 => ?_⟩,
    _, heads (node.writeRun [ingressMap 2] ⟨383, 1⟩ .barred) 9001 _ p2, rfl, noneLive rfl _, chooses rfl, ?_, fun j h1 h2 => ?_⟩
  · intro i c hc _
    simp [arrived, State.modLink, State.context] at hc
    rw [← hc]; simp
  · intro i; simp [arrived, State.modLink, State.context]
  · decide +kernel
  · decide +kernel
  · intro h
    have := (node.writeRun_slotAt [egressMap 7] ⟨383, 1⟩ .barred (egressMap 7) (by omega : 383 < 384)).symm.trans h
    revert this; decide
  · have w := node.writeRun_slotAt [egressMap 7] ⟨383, 1⟩ .barred
    have free (m : MapIx) : node.slotAt m j = .free := slotAt_free rfl m (by omega)
    have out : ¬(⟨383, 1⟩ : Run).covers j = true := by simp [Run.covers]; omega
    exact ⟨(w _ (by omega)).trans ((if_neg fun h => out h.2).trans (free _)),
      (w _ (by omega)).trans ((if_neg fun h => out h.2).trans (free _))⟩
  · intro h
    have := (node.writeRun_slotAt [ingressMap 2] ⟨383, 1⟩ .barred (ingressMap 2) (by omega : 383 < 384)).symm.trans h
    revert this; decide
  · have w := node.writeRun_slotAt [ingressMap 2] ⟨383, 1⟩ .barred
    have out : ¬(⟨383, 1⟩ : Run).covers j = true := by simp [Run.covers]; omega
    exact (w _ (by omega)).trans ((if_neg fun h => out h.2).trans (slotAt_free rfl _ (by omega)))

/-- A frame at a record, as the statements about frames start. -/
theorem frame_at (c : Context) (b : FrameBody) (hl : c.live = true) (hi : c.lightpathId = 9001)
    (hp : parseFrame 101 (⟨102, 9001, b⟩ : Frame).encode = some ⟨102, 9001, b⟩) :
    ∃ s, Heads s 2 ⟨102, 9001, b⟩ ∧ TheLive s 9001 0 c :=
  ⟨_, heads (nodeWith c) 9001 b hp, hi ▸ theLive c rfl hl⟩

/-- A frame of each kind at a context that does not meet its row: by its link, by its state, and a CLEAR by its hop. -/
theorem witness_stray :
    ∀ x ∈ ([(.clear 1, record .probing (.tail 2 15)), (.clear 1, record .reserved (.head 0 2)), (.clear 2, record .probing (.head 0 2)),
        (.refuse .slotBusy 102 1 (some 0), record .probing (.head 0 7)), (.refuse .slotBusy 102 1 (some 0), record .passed (.head 0 2)),
        (.light, record .reserved (.transit 7 2)), (.light, record .waitBudget (.tail 2 15)), (.lit, record .passed (.transit 2 7)),
        (.lit, record .inService (.head 0 2)), (.abort .timeout 102, record .passed (.head 2 7)),
        (.teardown, record .inService (.head 0 2)), (.teardown, record .passed (.tail 2 15))] : List (FrameBody × Context)),
      ∃ (s : State) (f : RxFrame), (s.link 2).rx = [f] ∧ f.status = .ok ∧
        parseFrame s.nodeId f.bytes = some ⟨102, 9001, x.1⟩ ∧ TheLive s 9001 0 x.2 := by
  intro x hx
  have h : x.2.live = true ∧ x.2.lightpathId = 9001 ∧ parseFrame 101 (⟨102, 9001, x.1⟩ : Frame).encode = some ⟨102, 9001, x.1⟩ := by
    simp only [List.mem_cons, List.not_mem_nil, or_false] at hx
    rcases hx with rfl | rfl | rfl | rfl | rfl | rfl | rfl | rfl | rfl | rfl | rfl | rfl <;> decide +kernel
  exact ⟨arrived (nodeWith x.2) 9001 x.1, ⟨(⟨102, 9001, x.1⟩ : Frame).encode, .ok⟩, by simp only [arrived, State.modLink_link_self], rfl, h.2.2, h.2.1 ▸ theLive x.2 rfl h.1⟩

/-- Transits and heads in PROBING at the first and the last hop that a CLEAR reaches, with ramp on clear and without. -/
theorem witness_clear :
    ∀ x ∈ ([(0, record .probing (.head 0 2)), (0, { record .probing (.head 0 2) with rampOnClear := some true }),
        (1, { record .probing (.transit 7 2) with hopIndex := some 1, rampOnClear := none }),
        (30, { record .probing (.transit 7 2) with hopIndex := some 30, rampOnClear := none })] : List (Nat × Context)),
      (∃ s, Heads s 2 ⟨102, 9001, .clear (x.1 + 1)⟩ ∧ TheLive s 9001 0 x.2) ∧ x.2.state = .probing ∧ x.2.hopIndex = some x.1 := by
  intro x hx
  have : (x.2.live = true ∧ x.2.lightpathId = 9001 ∧
      parseFrame 101 (⟨102, 9001, .clear (x.1 + 1)⟩ : Frame).encode = some ⟨102, 9001, .clear (x.1 + 1)⟩) ∧
      x.2.state = .probing ∧ x.2.hopIndex = some x.1 := by
    simp only [List.mem_cons, List.not_mem_nil, or_false] at hx
    rcases hx with rfl | rfl | rfl | rfl <;> decide +kernel
  exact ⟨frame_at _ _ this.1.1 this.1.2.1 this.1.2.2, this.2.1, this.2.2⟩

theorem witness_refuse : ∃ (s : State) (c : Context),
    Heads s 2 ⟨102, 9001, .refuse .slotBusy 102 31 (some 383)⟩ ∧ TheLive s 9001 0 c ∧ c.state = .probing ∧
      c.sides.downstream = some 2 ∧ c.charge = none ∧ (0 : CtxIx) ∉ (s.point c.point).line ∧ (0 : CtxIx) ∉ (s.point c.point).queue :=
  ⟨_, record .probing (.transit 7 2), heads (nodeWith (record .probing (.transit 7 2))) 9001 _ (by decide +kernel),
    theLive (record .probing (.transit 7 2)) rfl rfl, rfl, rfl, rfl,
    (by decide +kernel : (0 : CtxIx) ∉ (node.point 2).line), (by decide +kernel : (0 : CtxIx) ∉ (node.point 2).queue)⟩

theorem witness_light_lit :
    (∃ (s : State) (c : Context), TheLive s 9001 0 c ∧ Heads s 2 ⟨102, 9001, .light⟩ ∧ c.sides.upstream = some 2 ∧
      c.state = .reserved) ∧
    ∃ (s : State) (c : Context), TheLive s 9001 0 c ∧ Heads s 2 ⟨102, 9001, .lit⟩ ∧ c.sides.downstream = some 2 ∧ c.state = .passed :=
  ⟨⟨_, record .reserved (.tail 2 15), theLive (record .reserved (.tail 2 15)) rfl rfl,
      heads (nodeWith (record .reserved (.tail 2 15))) 9001 _ (by decide +kernel), rfl, rfl⟩,
    _, record .passed (.head 15 2), theLive (record .passed (.head 15 2)) rfl rfl,
    heads (nodeWith (record .passed (.head 15 2))) 9001 _ (by decide +kernel), rfl, rfl⟩

/-- Every state an ABORT finds, at a transit whose neighbours share a link, a transit that has two, a head and a tail. -/
theorem witness_abort :
    ∀ sides ∈ [Sides.transit 2 2, .transit 2 7, .transit 7 2, .head 0 2, .tail 2 15],
    ∀ c ∈ [record (.retiring .hard .queued) sides,
        { record (.ramping .actuating 0) sides with abortPending := some ⟨.abortedLocal, .abortedLocal, 101, some 0, none, none⟩ },
        record .probing sides, record .reserved sides, record .waitBudget sides, record (.ramping .queued 0) sides,
        { record (.ramping .queued 3) sides with attenuation := .tenths 0 }, record (.ramping .actuating 0) sides,
        record (.ramping .settling 3) sides, record (.ramping .backoff 3) sides, record .passed sides, record .inService sides],
      (∃ s, Heads s 2 ⟨102, 9001, .abort .timeout 102⟩ ∧ TheLive s 9001 0 c ∧ s.outstanding[c.point] = none) ∧
      (∃ s, Heads s 2 ⟨102, 9001, .abort .timeout 102⟩ ∧ TheLive s 9001 0 c ∧ s.outstanding[c.point] ≠ none) ∧
      (c.sides.upstream = some 2 ∨ c.sides.downstream = some 2) := by
  intro sides hs c hc
  have hp : parseFrame 101 (⟨102, 9001, .abort .timeout 102⟩ : Frame).encode = some ⟨102, 9001, .abort .timeout 102⟩ := by
    decide +kernel
  have h : c.lightpathId = 9001 ∧ c.live = true ∧ c.sides = sides := by
    simp only [List.mem_cons, List.not_mem_nil, or_false] at hc
    rcases hc with rfl | rfl | rfl | rfl | rfl | rfl | rfl | rfl | rfl | rfl | rfl | rfl <;> exact ⟨rfl, rfl, rfl⟩
  refine ⟨⟨_, heads (nodeWith c) 9001 _ hp, h.1 ▸ theLive c rfl h.2.1, ?_⟩,
    ⟨_, heads { nodeWith c with outstanding := Vector.replicate 16 (some ⟨0, .attenSet, 5⟩) } 9001 _ hp,
      h.1 ▸ theLive c rfl h.2.1, ?_⟩, ?_⟩
  · simp [arrived, State.modLink, nodeWith, State.setContext, node, State.reset]
  · simp [arrived, State.modLink]
  · rw [h.2.2]; clear hc h hp; revert hs; revert sides; decide

theorem witness_teardown :
    ∀ c ∈ [record .inService (.tail 2 15), record .inService (.transit 2 2), record .inService (.transit 7 2), record .passed (.tail 2 15)],
      ∃ s, Heads s 2 ⟨102, 9001, .teardown⟩ ∧ TheLive s 9001 0 c := by
  intro c hc
  have h : c.lightpathId = 9001 ∧ c.live = true := by
    simp only [List.mem_cons, List.not_mem_nil, or_false] at hc
    rcases hc with rfl | rfl | rfl | rfl <;> exact ⟨rfl, rfl⟩
  exact frame_at c _ h.2 h.1 (by decide +kernel)

/-! ### The ports and the timers -/

/-- The first point that does not exist, a record one byte short, a sequence repeated; and a record with none of these. -/
theorem witness_sweep :
    15 < (16#8).toNat ∧ (List.replicate 767 (0 : Byte)).length ≠ 768 ∧
    (∃ (s : State) (p : PointIx), (15#8).toNat = p.val ∧ (s.point p).lastSequence = some 255) ∧
    ∃ (s : State) (p : PointIx), (15#8).toNat = p.val ∧ (List.replicate 768 (0 : Byte)).length = 768 ∧
      (s.point p).lastSequence ≠ some 255 :=
  ⟨by decide, by rw [List.length_replicate]; omega,
    ⟨nodeAt 15 { Point.reset with lastSequence := some 255 }, 15, by decide, by decide +kernel⟩,
    node, 15, by decide, List.length_replicate, by decide +kernel⟩

/-- Records of no byte, of one byte and of 769 bytes. -/
theorem witness_sweep_short : ∀ n ∈ [0, 1, 769], (List.replicate n (0 : Byte)).length ≠ 770 := by
  intro n h; rw [List.length_replicate]; revert h; revert n; decide

/-- A record without a byte is discarded and counted (R138). -/
theorem test_sweep_empty : (after node (.sweepRecord [])).sweepDiscards = 1 ∧ (after node (.sweepRecord [])).alerts.monitor = true := by
  decide +kernel

/-- The node with a record that holds the lock of its point, and what else stands there. -/
def held (c : Context) (settle : Nat) (o : Option Outstanding) : State :=
  { nodeWith c with
    points := put node.points c.point { Point.reset with holder := some 0, settle := settle, sweepTimer := some 0 }
    outstanding := put node.outstanding c.point o }

theorem held_point (c : Context) (settle : Nat) (o : Option Outstanding) :
    (held c settle o).point c.point = { Point.reset with holder := some 0, settle := settle, sweepTimer := some 0 } := point_of rfl

theorem held_context (c : Context) (settle : Nat) (o : Option Outstanding) : (held c settle o).context 0 = some c := context_of rfl

theorem held_outstanding (c : Context) (settle : Nat) (o : Option Outstanding) : (held c settle o).outstanding[c.point] = o :=
  put_get_self _ c.point o

theorem held_alone (c : Context) (settle : Nat) (o : Option Outstanding) (x : PointIx) (y : Outstanding)
    (h : y ∈ (held c settle o).outstanding[x]) : x = c.point := by
  by_contra hx
  have : (held c settle o).outstanding[x] = none := (put_get_ne node.outstanding o (Ne.symm hx)).trans (by simp [node, State.reset])
  rw [this] at h; cases h

theorem holderAt (c : Context) (settle : Nat) (o : Option Outstanding) : HolderAt (held c settle o) c.point 0 c where
  holder := congrArg Point.holder (held_point ..)
  noService r h := absurd ((congrArg Point.service (held_point ..)).symm.trans h) (by simp [Point.reset])
  record := held_context ..

/-- The held record with one other charged record at its point, whose power has moved by an amount from its reference. -/
def beside (c : Context) (settle : Nat) (moved : Int) : State :=
  (held c settle none).setContext 1 (some { record .passed c.sides with
    lastMeasured := some ⟨moved, false, false⟩, reference := some ⟨0, false⟩ })

theorem beside_context (c : Context) (settle : Nat) (v : Int) : (beside c settle v).context 0 = some c :=
  (State.setContext_context _ 1 0 _).trans ((if_neg (by decide)).trans (held_context ..))

theorem beside_point (c : Context) (settle : Nat) (v : Int) :
    (beside c settle v).point c.point = { Point.reset with holder := some 0, settle := settle, sweepTimer := some 0 } :=
  held_point c settle none

/-- The guard is kept at its tolerance of 5 tenths. -/
theorem guard_kept (c : Context) (settle : Nat) : GuardKept (beside c settle 5) c.point 0 := by
  intro j x m r hj hx _ _ hm hr _
  rw [beside_point]
  have e := (State.setContext_context (held c settle none) 1 j _).symm.trans hx
  by_cases h : (1 : CtxIx) = j
  · rw [if_pos h] at e
    cases e; cases hm; cases hr; exact (by decide : ((5 : Int) - 0).natAbs ≤ 5)
  · rw [if_neg h] at e
    exact absurd (e.symm.trans (put_get_ne _ _ (Ne.symm hj))) (by simp [node, State.reset])

/-- It is violated one tenth beyond. -/
theorem guard_violated (c : Context) (settle : Nat) : ¬GuardKept (beside c settle 6) c.point 0 := by
  intro h
  have := h 1 _ _ _ (by decide) ((State.setContext_context _ 1 1 _).trans (if_pos rfl)) rfl
    (by exact (by decide : some 8515000 ≠ (none : Option Nat))) rfl rfl rfl
  rw [beside_point] at this
  exact absurd this (by exact (by decide : ¬((6 : Int) - 0).natAbs ≤ 5))

/-- The last run and the first of a sweep, with the readings where the clauses of R43 meet. -/
theorem witness_group_power :
    (∀ run ∈ ([⟨0, 2⟩, ⟨368, 16⟩] : List Run), run.first + run.width ≤ (List.replicate 384 (0x8000 : Word16)).length) ∧
    (0xFE6F#16).toInt = -401 ∧ (0xFE70#16).toInt = -400 ∧ (250#16).toInt = 250 ∧ (251#16).toInt = 251 := by
  rw [List.length_replicate]; decide

/-- The node with a holder whose setting is outstanding. -/
def acting (x : CtxState) : State :=
  { nodeWith (record x (.tail 2 15)) with
    points := put node.points 10 { Point.reset with holder := some 0 }
    outstanding := put node.outstanding 10 (some ⟨0, .block, 5⟩) }

/-- A holder whose setting is outstanding, in each kind of turn; no holder and an ACTIVE service request. In both the turns agree. -/
theorem witness_sweep_without_count :
    (∀ x ∈ [CtxState.ramping .actuating 0, .ramping .backoff 1, .retiring .gradual .actuating, .retiring .hard .actuating],
      ((acting x).point 10).holder = some 0 ∧ (acting x).context 0 = some (record x (.tail 2 15)) ∧
        ((acting x).point 10).settle = 0 ∧ (acting x).outstanding[(10 : PointIx)] ≠ none ∧ (acting x).turnAgrees 10 = true) ∧
    ∃ s : State, (s.point 15).holder = none ∧ (s.point 15).service = .active ⟨368, 16⟩ ∧ s.turnAgrees 15 = true :=
  ⟨by decide +kernel,
    { nodeAt 15 { Point.reset with service := .active ⟨368, 16⟩ } with outstanding := put node.outstanding 15 (some ⟨0, .block, 5⟩) },
    by decide +kernel⟩

/-- The tail in its window's edge, counting the second sweep and the last. -/
theorem witness_forward : ∃ c : Context, c.state = .ramping .settling 3 ∧ c.lastMeasured = some ⟨-13, false, false⟩ ∧
    (c.target - -13).natAbs = c.window ∧
    ∀ k ∈ [0, 1], ∃ s : State, (s.point c.point).holder = some 0 ∧ s.context 0 = some c ∧ (s.point c.point).settle = k + 1 ∧
      GuardKept s c.point 0 :=
  ⟨{ record (.ramping .settling 3) (.tail 2 15) with lastMeasured := some ⟨-13, false, false⟩ }, rfl, rfl, by decide,
    fun k _ => ⟨beside _ (k + 1) 5, congrArg Point.holder (beside_point ..), beside_context .., congrArg Point.settle (beside_point ..),
      guard_kept _ _⟩⟩

/-- The last sweep of every kind of turn, with the guard violated and kept; powers one tenth outside the window on either side. -/
theorem witness_measurement :
    (∀ sub ∈ [RampSub.settling, .backoff], ∀ b ∈ [1, 2], ∀ j ∈ [[⟨.block, .tenths 250⟩], [⟨.block, .tenths 250⟩, ⟨.tenths 250, .tenths 230⟩]],
      ∃ (s : State) (c : Context), (s.point c.point).holder = some 0 ∧ s.context 0 = some c ∧ (s.point c.point).settle = 0 + 1 ∧
        c.state = .ramping sub b ∧ c.journal = j ∧ ¬GuardKept s c.point 0) ∧
    (∀ a ∈ [0, 250], ∀ v ∈ ([-14, -6] : List Int), ∃ (s : State) (c : Context), (s.point c.point).holder = some 0 ∧
      s.context 0 = some c ∧ (s.point c.point).settle = 0 + 1 ∧ c.state = .ramping .settling 0 ∧ GuardKept s c.point 0 ∧
      c.attenuation = .tenths a ∧ c.lastMeasured = some ⟨v, false, false⟩ ∧ c.target = -10 ∧ c.window = 3) ∧
    (∀ x ∈ [(CtxState.ramping .backoff 1, 0), (.ramping .backoff 1, 1), (.retiring .gradual .settling, 0)],
      ∃ (s : State) (c : Context), (s.point c.point).holder = some 0 ∧ s.context 0 = some c ∧ (s.point c.point).settle = x.2 + 1 ∧
        c.state = x.1 ∧ GuardKept s c.point 0) :=
  ⟨fun sub _ b _ j _ => ⟨beside { record (.ramping sub b) (.tail 2 15) with journal := j } 1 6, _,
      congrArg Point.holder (beside_point ..), beside_context .., congrArg Point.settle (beside_point ..), rfl, rfl, guard_violated _ _⟩,
    fun a _ v _ => ⟨beside { record (.ramping .settling 0) (.tail 2 15) with
        attenuation := .tenths a, lastMeasured := some ⟨v, false, false⟩ } 1 5, _, congrArg Point.holder (beside_point ..),
      beside_context .., congrArg Point.settle (beside_point ..), rfl, guard_kept _ _, rfl, rfl, rfl, rfl⟩,
    fun x _ => ⟨beside (record x.1 (.tail 2 15)) (x.2 + 1) 5, _, congrArg Point.holder (beside_point ..), beside_context ..,
      congrArg Point.settle (beside_point ..), rfl, guard_kept _ _⟩⟩

/-- What can be delivered of a setting outstanding with a tag and a time left: its acknowledgements, and at no time left its expiry,
whether the setting still waits or not. -/
def outcomes (p : PointIx) (tag : Byte) : List (Instr × SettingOutcome) :=
  [(.acknowledgement [tag, 0], .ok), (.acknowledgement [tag, 1], .reject), (.actuatorTimerExpiry p, .timeout)]

theorem delivers (s : State) (p : PointIx) (tag : Byte) (kind : SettingKind) (w : List Setting) (x : Instr × SettingOutcome)
    (hx : x ∈ outcomes p tag) (h : s.outstanding[p] = some ⟨tag, kind, 0⟩) (hn : ∀ q : PointIx, ∀ y ∈ s.outstanding[q], q = p)
    (hw : (∀ m ∈ s.toSend, m.tag ≠ tag) ∧ w = s.toSend ∨
      ∃ a m b, s.toSend = a ++ m :: b ∧ m.tag = tag ∧ (∀ y ∈ b, y.tag ≠ tag) ∧ w = a ++ b) :
    ∃ u, Delivers s p x.1 x.2 u := by
  simp only [outcomes, List.mem_cons, List.not_mem_nil, or_false] at hx
  rcases hx with rfl | rfl | rfl
  · exact ⟨_, _, h, .inl ⟨.inl ⟨rfl, rfl⟩, fun q y hy _ => hn q y hy, rfl⟩⟩
  · exact ⟨_, _, h, .inl ⟨.inr ⟨rfl, rfl⟩, fun q y hy _ => hn q y hy, rfl⟩⟩
  · exact ⟨_, _, h, .inr ⟨rfl, rfl, rfl, w, rfl, hw⟩⟩

/-- Every outcome at a holder in every turn, with an abort pending and without; a length, a result and a tag that match nothing; an entry
with time left, and none. -/
theorem witness_acknowledgement :
    (∃ bytes : List Byte, ∀ tag result, bytes = [tag, result] → 1 < result.toNat) ∧
    (∃ (s : State) (tag result : Byte), ¬1 < result.toNat ∧ ∀ p : PointIx, ∀ e ∈ s.outstanding[p], e.tag ≠ tag) ∧
    (∀ o ∈ [none, some ⟨0, .block, 1⟩], ∃ (s : State) (p : PointIx), s.outstanding[p] = o) ∧
    ∀ x ∈ [CtxState.ramping .actuating 3, .ramping .backoff 1, .retiring .gradual .actuating],
    ∀ a ∈ [none, some (⟨.abortedLocal, .abortedLocal, 101, some 0, none, none⟩ : Ending)], ∀ y ∈ outcomes 10 255,
      ∃ (s u : State) (c : Context), Delivers s 10 y.1 y.2 u ∧ HolderAt s 10 0 c ∧ c.state = x ∧ c.abortPending = a ∧
        c.attenuation = .tenths 250 := by
  refine ⟨⟨[0, 2], by intro t r h; cases h; decide⟩, ⟨node, 0, 1, by decide, by intro p e h; simp [node, State.reset] at h⟩,
    fun o _ => ⟨held (record .reserved (.tail 2 15)) 0 o, 10, held_outstanding _ 0 o⟩, fun x _ a _ y hy => ?_⟩
  obtain ⟨u, h⟩ := delivers (held { record x (.tail 2 15) with abortPending := a, attenuation := .tenths 250 } 0
    (some ⟨255, .attenSet, 0⟩)) _ 255 .attenSet [] y hy (held_outstanding ..) (held_alone _ _ _) (.inl ⟨(by intro m h; cases h), rfl⟩)
  exact ⟨_, u, _, h, holderAt { record x (.tail 2 15) with abortPending := a, attenuation := .tenths 250 } _ _, rfl, rfl, rfl⟩

/-- Every outcome of a service request's BLOCK, at an expiry with the setting still waiting to be sent. -/
theorem witness_actuator_timer : ∀ x ∈ outcomes 10 9, ∃ (s u : State) (r : Run), Delivers s 10 x.1 x.2 u ∧ (s.point 10).service = .active r := by
  intro x hx
  obtain ⟨u, h⟩ := delivers { held (record .reserved (.tail 2 15)) 0 (some ⟨9, .block, 0⟩) with
      points := put node.points 10 { Point.reset with service := .active ⟨368, 16⟩ }, toSend := [⟨9, 10, ⟨368, 16⟩, .block⟩] }
    10 9 .block [] x hx (held_outstanding _ 0 _) (held_alone (record .reserved (.tail 2 15)) 0 _)
    (.inr ⟨[], _, [], rfl, rfl, fun y h => (by cases h), rfl⟩)
  exact ⟨_, u, ⟨368, 16⟩, h, congrArg Point.service (put_get_self node.points (10 : PointIx) _)⟩

/-- Every outcome of a hard turn's BLOCK and the OK of a gradual one, at a head and at a tail. -/
theorem witness_hard_block :
    ∀ sides ∈ [Sides.head 6 2, .tail 2 15], ∀ x ∈ [Mode.gradual, .hard], ∀ y ∈ outcomes sides.point 0, ∃ (s u : State) (c : Context) (e : Ending),
      Delivers s sides.point y.1 y.2 u ∧ HolderAt s sides.point 0 c ∧ c.point = sides.point ∧ c.state = .retiring x .actuating ∧
      c.attenuation = .block ∧ c.ending = some e ∧ e.cause = .completed ∧ c.charge = some 8515000 := by
  intro sides _ x _ y hy
  obtain ⟨u, h⟩ := delivers (held (record (.retiring x .actuating) sides) 0 (some ⟨0, .block, 0⟩)) _ 0 .block [] y hy
    (held_outstanding ..) (held_alone _ _ _) (.inl ⟨(by intro m h; cases h), rfl⟩)
  exact ⟨_, u, _, _, h, holderAt (record (.retiring x .actuating) sides) _ _, rfl, rfl, rfl, rfl, rfl, rfl⟩

theorem witness_settings : (∃ (s : State) (m : Setting) (rest : List Setting), s.toSend = m :: rest) ∧ ∃ s : State, s.toSend = [] :=
  ⟨⟨{ node with toSend := [⟨0, 0, ⟨0, 2⟩, .block⟩] }, _, _, rfl⟩, node, rfl⟩

/-- A timer with time left, a disarmed one, and one at 0 in each state that arms it. -/
theorem witness_watch_timer :
    (∀ o ∈ [none, some 1], ∃ (s : State) (c : Context), s.context 0 = some c ∧ c.watchTimer = o) ∧
    ∀ x ∈ [CtxState.probing, .reserved, .waitBudget, .passed],
      ∃ (s : State) (c : Context), s.context 0 = some c ∧ c.watchTimer = some 0 ∧ c.state = x := by
  refine ⟨fun o _ => ⟨nodeWith { record .probing (.tail 2 15) with watchTimer := o }, _, context_of rfl, rfl⟩,
    fun x hx => ⟨nodeWith (record x (.tail 2 15)), _, context_of rfl, ?_, rfl⟩⟩
  simp only [List.mem_cons, List.not_mem_nil, or_false] at hx
  rcases hx with rfl | rfl | rfl | rfl <;> rfl

/-- The same of the sweep timer, at 0 in each turn that settles. -/
theorem witness_sweep_timer :
    (∀ o ∈ [none, some 1], ∃ (s : State) (p : PointIx), (s.point p).sweepTimer = o) ∧
    ∀ x ∈ [CtxState.retiring .gradual .settling, .ramping .settling 3, .ramping .backoff 1], ∃ (s : State) (p : PointIx)
      (c : Context), (s.point p).sweepTimer = some 0 ∧ (s.point p).holder = some 0 ∧ s.context 0 = some c ∧ c.state = x :=
  ⟨fun o _ => ⟨nodeAt 15 { Point.reset with sweepTimer := o }, 15, congrArg Point.sweepTimer (put_get_self node.points (15 : PointIx) _)⟩,
    fun x _ => ⟨held (record x (.tail 2 15)) 1 none, 10, _, congrArg Point.sweepTimer (held_point ..),
      congrArg Point.holder (held_point ..), held_context .., rfl⟩⟩

/-! ### Shared mechanisms and invariants -/

theorem witness_admission : ∃ (s : State) (p : PointIx), (s.point p).line = [0] ∧ (s.point p).line.Nodup ∧
    ∀ i ∈ (s.point p).line, ∃ c, s.context i = some c ∧ c.state = .waitBudget := by
  have e : ({ nodeWith (record .waitBudget (.tail 2 15)) with
      points := put node.points 10 { Point.reset with line := [0] } } : State).point 10 = { Point.reset with line := [0] } :=
    point_of rfl
  refine ⟨_, 10, congrArg Point.line e, ?_, ?_⟩
  · rw [e]; decide
  · rw [e]; intro i hi
    rw [List.mem_singleton.1 hi]
    exact ⟨_, context_of rfl, rfl⟩

/-- The node with a record at the head of its point's step queue, and another behind it. -/
def queued (c : Context) : State :=
  { nodeWith c with points := put node.points c.point { Point.reset with queue := [0, 1] } }

theorem queued_point (c : Context) : (queued c).point c.point = { Point.reset with queue := [0, 1] } := point_of rfl

/-- A taken lock, an ACTIVE and a PENDING request, an empty queue; and a queue whose head retires, ramps from BLOCK, or ramps from either end
of the attenuations with its power at and outside either edge of its window. A journal one short of full, and a full one. -/
theorem witness_lock_grant :
    (∃ (s : State) (p : PointIx), (s.point p).holder ≠ none) ∧
    (∀ x ∈ [Service.none, .pending ⟨368, 16⟩, .active ⟨368, 16⟩], ∃ (s : State) (p : PointIx), (s.point p).holder = none ∧
      (s.point p).service = x ∧ (s.point p).queue = []) ∧
    (∀ x ∈ [CtxState.retiring .gradual .queued, .retiring .hard .queued, .ramping .queued 2], ∀ a ∈ [Atten.block, .tenths 0, .tenths 250],
      ∀ v ∈ ([-14, -13, -7, -6] : List Int), ∃ (s : State) (c : Context), (s.point c.point).holder = none ∧
        (s.point c.point).service = .none ∧ (s.point c.point).queue = [0, 1] ∧ s.context 0 = some c ∧ c.state = x ∧ c.attenuation = a ∧
        c.lastMeasured = some ⟨v, false, false⟩ ∧ c.step = some 20 ∧ c.target = -10 ∧ c.window = 3) ∧
    ∀ r : JournalRecord, (List.replicate 15 r).length < 16 ∧ ∃ a b l, List.replicate 16 r = a :: b :: l ∧ 16 ≤ (List.replicate 16 r).length :=
  ⟨⟨held (record .reserved (.tail 2 15)) 0 none, 10, fun h => nomatch (congrArg Point.holder (held_point (record .reserved (.tail 2 15)) 0 none)).symm.trans h⟩,
    fun x _ => ⟨nodeAt 15 { Point.reset with service := x }, 15,
      congrArg Point.holder (put_get_self node.points (15 : PointIx) _), congrArg Point.service (put_get_self node.points (15 : PointIx) _),
      congrArg Point.queue (put_get_self node.points (15 : PointIx) _)⟩,
    fun x _ a _ v _ => ⟨queued { record x (.tail 2 15) with attenuation := a, lastMeasured := some ⟨v, false, false⟩ }, _,
      congrArg Point.holder (queued_point _), congrArg Point.service (queued_point _), congrArg Point.queue (queued_point _),
      context_of rfl, rfl, rfl, rfl, rfl, rfl, rfl⟩,
    fun r => ⟨by simp, r, r, List.replicate 14 r, rfl, by simp⟩⟩

/-- A frame of each kind with its fields at their bounds. -/
theorem witness_frame : ∃ (own : Word16) (f : Frame), f.sender ≠ 0 ∧ f.sender ≠ own ∧ ∃ route : List Byte,
    f.body = .probe 31 368 16 20 30 32 route ∧ route.length = 32 ∧ (∀ x ∈ route.dropLast, x.toNat ≤ 7) ∧
    (route.getLastD 0).toNat ≤ 15 :=
  ⟨101, ⟨102, 0, .probe 31 368 16 20 30 32 (List.replicate 31 7 ++ [15])⟩, by decide, by decide, _, rfl, by decide, by decide,
    by decide⟩

/-- The bounds of a PROBE's fields whose window and step bytes are arbitrary. -/
theorem witness_probe_bytes : ∃ (own n : Word16) (k f w len : Nat) (route : List Byte), n ≠ 0 ∧ n ≠ own ∧ 1 ≤ k ∧ k < len ∧ 2 ≤ len ∧
    len ≤ 32 ∧ 2 ≤ w ∧ w ≤ 16 ∧ f ≤ 383 ∧ f + w ≤ 384 ∧ route.length = len ∧ (∀ x ∈ route.dropLast, x.toNat ≤ 7) ∧
    (route.getLastD 0).toNat ≤ 15 :=
  ⟨101, 102, 31, 382, 2, 32, List.replicate 31 7 ++ [15], by decide⟩

/-- A PROBE whose window byte is 0 and whose step byte is 255 reads with window 1 and step 30 (R97, R181). -/
theorem test_probe_clamp : parseFrame 101 [1, 19, 0, 102, 0, 0, 0x23, 0x29, 1, 0, 30, 4, 0, 255, 2, 2, 15, 0, 0] =
    some ⟨102, 9001, .probe 1 30 4 1 30 2 [2, 15]⟩ := by decide +kernel

/-- The most significant byte comes first (R179): −40.0 dBm is 0xFE70. -/
theorem test_byte_order : bytes32 0x01020304 = [1, 2, 3, 4] ∧ nat16 383 = [1, 127] ∧ int16 (-400) = [0xFE, 0x70] := by decide +kernel

/-- The digits of both ends of the range, and a mantissa that a remainder rounds up. -/
theorem witness_forward_digits :
    (∀ x ∈ ([(0, 0, 0, 1000, 1000, 1000), (6, 5, 0, 3162, 3162, 1000), (3, 9, 3, 8515, 7943, 1072)] : List (Nat × Nat × Nat × Nat × Nat × Nat)),
      x.1 ≤ 6 ∧ 100 * x.1 + 10 * x.2.1 + x.2.2.1 ≤ 650 ∧
      ([1000, 1259, 1585, 1995, 2512, 3162, 3981, 5012, 6310, 7943] : List Nat)[x.2.1]? = some x.2.2.2.2.1 ∧
      ([1000, 1023, 1047, 1072, 1096, 1122, 1148, 1175, 1202, 1230] : List Nat)[x.2.2.1]? = some x.2.2.2.2.2 ∧
      1000 * x.2.2.2.1 ≤ x.2.2.2.2.1 * x.2.2.2.2.2 + 500 ∧ x.2.2.2.2.1 * x.2.2.2.2.2 + 500 < 1000 * (x.2.2.2.1 + 1)) ∧
    (-400 : Int) < 250 := by
  decide

/-- The sums at which the three clauses meet. -/
theorem witness_reverse : (999 : Nat) < 1000 ∧ (3162000000 : Nat) < 3162000001 ∧ (1000 : Nat) ≤ 1000 ∧ (1000 : Nat) ≤ 3162000000 := by
  omega

/-- The node with a head in PROBING, its run held: a state that every invariant holds in. -/
def busy : State := (node.writeRun [10] ⟨30, 4⟩ (.held 0)).setContext 0 (some (record .probing (.head 6 2)))

theorem busy_context (i : CtxIx) : busy.context i = if i = 0 then some (record .probing (.head 6 2)) else none := by
  rw [busy, State.setContext_context]
  by_cases h : i = 0
  · rw [if_pos h, if_pos h.symm]
  · rw [if_neg h, if_neg (Ne.symm h)]; simp [State.context, node, State.reset]

theorem busy_record {i : CtxIx} {c : Context} (h : c ∈ busy.context i) : i = 0 ∧ c = record .probing (.head 6 2) := by
  rw [busy_context] at h
  by_cases e : i = 0
  · rw [if_pos e] at h; exact ⟨e, (Option.some.inj h).symm⟩
  · rw [if_neg e] at h; cases h

theorem busy_point (p : PointIx) : busy.point p = Point.reset := by
  simp [busy, State.point, State.setContext, node, State.reset]

theorem busy_slotAt (m : MapIx) {k : Nat} (h : k < 384) :
    busy.slotAt m k = if m = 10 ∧ (⟨30, 4⟩ : Run).covers k = true then .held 0 else .free := by
  refine (node.writeRun_slotAt [10] ⟨30, 4⟩ (.held 0) m h).trans ?_
  rw [slotAt_free (s := node) rfl m h]; simp only [List.mem_singleton]

theorem busy_holds (i : CtxIx) (m : MapIx) (k : Nat) :
    busy.holds i m k = true ↔ i = 0 ∧ m = 10 ∧ (⟨30, 4⟩ : Run).covers k = true := by
  rw [State.holds, busy_context]
  by_cases h : i = 0
  · rw [if_pos h]
    have l : (record .probing (.head 6 2)).live = true := rfl
    have n : (record .probing (.head 6 2)).sides.mapsUsed = [10] := rfl
    have r : (record .probing (.head 6 2)).run = ⟨30, 4⟩ := rfl
    simp [h, l, n, r]
  · simp [h]

theorem witness_links_tags : LinksWellFormed busy ∧ TagsDistinct busy := by
  refine ⟨⟨fun d => ?_, by decide, by decide⟩, fun p q a ha => ?_⟩
  · have : busy.link d = { Link.reset true with state := .up } := by simp [busy, State.link, State.setContext, node]
    rw [this]
    simp [Link.wellFormed, Link.countsSaturate, Link.reset]
  · simp [busy, State.setContext, node, State.reset] at ha

theorem witness_configuration_bus : ConfigurationLegal busy ∧ BusConsistent busy := by
  refine ⟨⟨?_, fun p => ?_, by decide +kernel, fun _ => (by decide : (101 : Word16) ≠ 0)⟩, fun st => ⟨?_, ?_, ?_⟩⟩
  · have : busy.timing = Timing.reset := rfl
    rw [this]; simp [Timing.inRange, Timing.reset]
  · rw [busy_point]; decide
  · simp [busy, State.setContext, node, State.reset, Intake.fits]
  · intro c h; simp [busy, State.setContext, node, State.reset] at h
  · intro b e h; simp [busy, State.setContext, node, State.reset] at h

theorem witness_records : RecordsWellFormed busy := by
  intro i c hc
  rw [(busy_record hc).2]
  simp [Context.wellFormed, record, journalChain, Atten.inRange, optFrom1, CtxState.backoffs, CtxState.charged, CtxState.ending,
    CtxState.watched, CtxState.timed]

theorem witness_table : TableConsistent busy ∧ ChangedSetsOwned busy := by
  refine ⟨⟨List.nodup_nil, fun i => ?_, fun i j c hc e he _ _ _ => (busy_record hc).1.trans (busy_record he).1.symm⟩, fun st i h => ?_⟩
  · have : busy.endedList = [] := rfl
    rw [this, busy_context]; by_cases h : i = 0 <;> simp [h, record]
  · simp [busy, State.setContext, node, State.reset] at h

theorem witness_maps : TableConsistent busy ∧ MapsAgree busy := by
  refine ⟨witness_table.1, fun m k i => ⟨fun h => ?_, fun h c hc => ?_⟩⟩
  · rw [busy_slotAt m k.isLt] at h
    rw [busy_holds]
    by_cases e : m = 10 ∧ (⟨30, 4⟩ : Run).covers k.val = true
    · rw [if_pos e] at h; simp at h; exact ⟨h.symm, e⟩
    · rw [if_neg e] at h; simp at h
  · obtain ⟨rfl, e⟩ := (busy_holds i m k.val).1 h
    rw [busy_slotAt m k.isLt, if_pos e, (busy_record hc).2]
    rfl

theorem witness_points : TableConsistent busy ∧ RecordsWellFormed busy ∧ PointsConsistent busy := by
  refine ⟨witness_table.1, witness_records, fun p => ?_⟩
  have stands (kind : CtxState → Bool) (i : CtxIx) (h : kind .probing = false) : busy.stands p i kind = false := by
    rw [State.stands, busy_context]; by_cases e : i = 0 <;> simp [e, record, h]
  rw [busy_point]
  refine ⟨List.nodup_nil, List.nodup_nil, fun i => ?_, fun i => ?_, fun i => ?_, ?_, fun i c hc _ h => ?_⟩
  · rw [stands _ _ rfl]; simp [Point.reset]
  · rw [stands _ _ rfl]; simp [Point.reset]
  · rw [stands _ _ rfl]; simp [Point.reset]
  · rw [State.turnAgrees, busy_point]
    simp [Point.reset, State.isOutstanding, busy, State.setContext, node, State.reset, Service.isActive]
  · rw [(busy_record hc).2] at h; cases h

theorem witness_load : TableConsistent busy ∧ RecordsWellFormed busy ∧ PointsConsistent busy ∧ LoadAgrees busy := by
  refine ⟨witness_table.1, witness_records, witness_points.2.2, fun p => ?_⟩
  have zero (i : CtxIx) : busy.chargeAt p i = 0 := by
    rw [State.chargeAt, busy_context]; by_cases e : i = 0 <;> simp [e, record, CtxState.charged]
  rw [busy_point]
  refine ⟨?_, Nat.zero_le _⟩
  have : busy.chargeAt p = fun _ => 0 := funext zero
  rw [State.chargeSum, this]; decide

/-- Every state steps, this one too. -/
theorem witness_step : ∃ t, step busy = .next t := ⟨_, rfl⟩

end Sys2Proof.Tests
end

section
/-! ## Searches of the slot maps and of the context table, said once (R5, R6, R14, R25, R26) -/

namespace Sys2Proof.Machine

theorem Run.covers_iff {r : Run} {k : Nat} : r.covers k = true ↔ r.first ≤ k ∧ k < r.first + r.width := by
  simp [Run.covers]

/-- The first slot of a run at which a search succeeds. -/
theorem Run.findSome?_slots {α : Type} {r : Run} {k : Nat} {f : Nat → Option α} {b : α} (hk : r.covers k = true)
    (hb : f k = some b) (before : ∀ j, r.first ≤ j → j < k → f j = none) : r.slots.findSome? f = some b := by
  obtain ⟨h1, h2⟩ := Run.covers_iff.1 hk
  have hsplit : r.slots = List.range' r.first (k - r.first) ++ k :: List.range' (k + 1) (r.first + r.width - (k + 1)) := by
    have hw : r.width = (k - r.first) + ((r.first + r.width - (k + 1)) + 1) := by omega
    rw [Run.slots]
    conv_lhs => rw [hw]
    rw [← List.range'_append_1, List.range'_succ, show r.first + (k - r.first) = k by omega]
  have hnone : (List.range' r.first (k - r.first)).findSome? f = none :=
    List.findSome?_eq_none_iff.2 fun j hj => by
      rw [List.mem_range'_1] at hj
      exact before j hj.1 (by omega)
  rw [hsplit, List.findSome?_append, hnone, List.findSome?_cons, hb]
  rfl

theorem Slot.occupied_iff {x : Slot} : x.occupied = true ↔ ∃ i, x = .held i ∨ x = .lit i := by
  cases x <;> simp [Slot.occupied]

theorem Slot.not_occupied_iff {x : Slot} : x.occupied = false ↔ x = .free ∨ x = .barred := by
  cases x <;> simp [Slot.occupied]

namespace State

variable {s : State}

/-- The occupancy test names the lowest HELD or LIT slot (R14). -/
theorem occupancy_eq_some {m : MapIx} {r : Run} {k : Nat} (hk : r.covers k = true) (ho : (s.slotAt m k).occupied = true)
    (before : ∀ j, r.first ≤ j → j < k → (s.slotAt m j).occupied = false) : s.occupancy m r = some k := by
  obtain ⟨h1, h2⟩ := Run.covers_iff.1 hk
  refine List.find?_range'_eq_some.2 ⟨ho, List.mem_range'_1.2 ⟨h1, h2⟩, fun j hj hjk => ?_⟩
  simp [before j hj hjk]

/-- The conflict report names the lowest slot that is not FREE, and the first named map on which it is not (R5, R6). -/
theorem conflict_eq_some {ms a b : List MapIx} {m : MapIx} {r : Run} {k : Nat} (hms : ms = a ++ m :: b)
    (hk : r.covers k = true) (hm : s.slotAt m k ≠ .free) (ha : ∀ n ∈ a, s.slotAt n k = .free)
    (before : ∀ j, r.first ≤ j → j < k → ∀ n ∈ ms, s.slotAt n j = .free) : s.conflict ms r = some (k, m) := by
  refine Run.findSome?_slots hk ?_ fun j hj hjk => ?_
  · have hnone : a.find? (fun n => s.slotAt n k != .free) = none :=
      List.find?_eq_none.2 fun n hn => by simp [ha n hn]
    have hfind : ms.find? (fun n => s.slotAt n k != .free) = some m := by
      rw [hms, List.find?_append, hnone, List.find?_cons_of_pos (by simpa using hm)]; rfl
    rw [hfind]; rfl
  · rw [List.find?_eq_none.2 fun n hn => by simp [before j hj hjk n hn]]; rfl

theorem conflict_of_freeOn {ms : List MapIx} {r : Run} (h : FreeOn s ms r) : s.conflict ms r = none :=
  (s.conflict_eq_none ms r).2 h

theorem freeOn_iff {ms : List MapIx} {r : Run} : FreeOn s ms r ↔ s.conflict ms r = none := (s.conflict_eq_none ms r).symm

/-- No live context carries the ID exactly where the search for one finds none (R25). -/
theorem findLive_eq_none_iff {id : Word32} : s.findLive id = none ↔ NoneLive s id := by
  refine ⟨fun h i c hc hl => s.findLive_none h i c hc hl, fun h => ?_⟩
  cases hf : s.findLive id with
  | none => rfl
  | some x =>
    obtain ⟨hc, hl, hid⟩ := s.findLive_some hf
    exact absurd hid (h x.1 x.2 hc hl)

theorem findLive_isSome_iff {id : Word32} : (s.findLive id).isSome = true ↔ ¬NoneLive s id := by
  rw [← findLive_eq_none_iff, Option.isSome_iff_ne_none]

theorem findLive_eq_some {id : Word32} {i : CtxIx} {c : Context} (h : TheLive s id i c) : s.findLive id = some (i, c) := by
  cases hf : s.findLive id with
  | none => exact absurd h.carries (s.findLive_none hf i c h.record h.live)
  | some x =>
    obtain ⟨j, d⟩ := x
    obtain ⟨hd, hl, hid⟩ := s.findLive_some hf
    obtain rfl := h.only j d hd hl hid
    rw [h.record] at hd
    rw [Option.some.inj hd]

/-- At most one index is the choice for a creation (R26). -/
theorem chooses_unique {i j : CtxIx} (hi : Chooses s i) (hj : Chooses s j) : i = j := by
  rcases hi with ⟨hi, li⟩ | ⟨ni, hi⟩ <;> rcases hj with ⟨hj, lj⟩ | ⟨nj, hj⟩
  · rcases lt_trichotomy i j with h | h | h
    · exact absurd hi (lj i h)
    · exact h
    · exact absurd hj (li j h)
  · exact absurd hi (nj i)
  · exact absurd hj (ni j)
  · exact Option.some.inj (hi.symm.trans hj)

/-- The search for a record to create in finds the choice (R26). -/
theorem chooseRecord_eq_some {i : CtxIx} (h : Chooses s i) : s.chooseRecord = some i := by
  cases hc : s.chooseRecord with
  | some j => rw [chooses_unique h (s.chooseRecord_some hc)]
  | none =>
    exfalso
    unfold State.chooseRecord at hc
    split at hc
    · cases hc
    next hf =>
      rcases h with ⟨hi, -⟩ | ⟨-, hi⟩
      · exact absurd hi (by simpa using List.find?_eq_none.1 hf i (List.mem_finRange i))
      · rw [hi] at hc; cases hc

theorem chooseRecord_eq_none (hf : ∀ i, s.context i ≠ none) (he : s.endedList = []) : s.chooseRecord = none := by
  cases hc : s.chooseRecord with
  | none => rfl
  | some j =>
    rcases s.chooseRecord_some hc with ⟨hj, -⟩ | ⟨-, hj⟩
    · exact absurd hj (hf j)
    · rw [he] at hj; cases hj

end State

/-! ## What written runs and state changes leave, said once -/

/-- What a written run leaves in the maps depends on the maps alone. -/
theorem State.writeRun_maps_congr {s t : State} (h : t.maps = s.maps) (ms : List MapIx) (r : Run) (x : Slot) :
    (t.writeRun ms r x).maps = (s.writeRun ms r x).maps := by
  induction ms generalizing s t with
  | nil => exact h
  | cons m ms ih => exact ih (by simp only [State.changeRun, h])

/-- What a state change leaves in a changed set (R32). -/
theorem State.enter_changed_eq (s : State) (i j : CtxIx) (c : Context) (st : CtxState) (x : Station) :
    ((s.enter i c st).changed[x])[j] = if j = i ∧ (x = 0 ∨ x = c.owner) then true else (s.changed[x])[j] := by
  rw [State.enter_changed]
  by_cases h : j = i ∧ (x = 0 ∨ x = c.owner)
  · obtain ⟨rfl, h⟩ := h
    rw [if_pos ⟨rfl, h⟩]
    rcases h with rfl | rfl <;> simp
  · rw [if_neg h, decide_eq_false fun ⟨a, b⟩ => h ⟨b.symm, a.elim (fun e => .inr e.symm) .inl⟩, Bool.false_or]

/-! ## Numbers and arguments out of bytes (R179, R180) -/

theorem indexByte_toNat {n : Nat} (i : Fin n) (h : n ≤ 256) : (indexByte i).toNat = i.val := by
  have := i.isLt
  simp [indexByte, byte]; omega

theorem byte_toNat {n : Nat} (h : n < 256) : (byte n).toNat = n := by
  simp [byte]; omega

theorem ofNat16_toNat {n : Nat} (h : n < 65536) : (BitVec.ofNat 16 n).toNat = n := by
  simp; omega

theorem mapArg_indexByte (m : MapIx) : mapArg (indexByte m) = some m := by
  simp [mapArg, indexByte_toNat]

theorem mapArg_eq_none {b : Byte} (h : 15 < b.toNat) : mapArg b = none := by
  rw [mapArg, dif_neg (by omega)]

theorem pointArg_indexByte (p : PointIx) : pointArg (indexByte p) = some p := by
  simp [pointArg, indexByte_toNat]

theorem pointArg_eq_none {b : Byte} (h : 15 < b.toNat) : pointArg b = none := by
  rw [pointArg, dif_neg (by omega)]

theorem portArg_indexByte (p : Fin 16) : portArg (indexByte p) = some p := by
  simp [portArg, indexByte_toNat]

theorem degreeArg_indexByte (d : Degree) : degreeArg (indexByte d) = some d := by
  simp [degreeArg, indexByte_toNat]

/-- The arguments of a command about a range of a map (R180). -/
theorem rangeAt_range (m : Byte) (first count : Word16) :
    rangeAt (m :: bytes16 first ++ bytes16 count) 1 = ⟨first.toNat, count.toNat⟩ := by
  simp [rangeAt, word16At, byteAt, bytes16, word16_bytes16]

/-- The same where the bytes are those of numbers. -/
theorem rangeAt_nat (m : Byte) {first count : Nat} (hf : first < 65536) (hc : count < 65536) :
    rangeAt (m :: nat16 first ++ nat16 count) 1 = ⟨first, count⟩ := by
  rw [nat16, nat16, rangeAt_range, ofNat16_toNat hf, ofNat16_toNat hc]

theorem Run.isRange_iff {r : Run} : r.isRange = true ↔ 1 ≤ r.width ∧ r.first ≤ 383 ∧ r.first + r.width ≤ 384 := by
  simp [Run.isRange, and_assoc]

theorem Run.isSlotRun_iff {r : Run} :
    r.isSlotRun = true ↔ 2 ≤ r.width ∧ r.width ≤ 16 ∧ r.first ≤ 383 ∧ r.first + r.width ≤ 384 := by
  simp [Run.isSlotRun, and_assoc]

theorem stationZero_zero (body : List Byte → State → Verdict) (args : List Byte) (s : State) :
    stationZero body 0 args s = body args s := if_pos rfl

end Sys2Proof.Machine
end

section
/-! ## The state after reset meets every invariant (R18, R39, R78, R124, R135, R147, R159, R160) -/

namespace Sys2Proof.Machine

/-- A reset leaves every block in its reset state, whatever stays put on the ports and waits outside (log entry 13). -/
theorem afterReset_resetWith (strap : BitVec 3) (carriers : BitVec 8) (outputs : List Output) (pending : List Instr) :
    AfterReset strap carriers { resetWith strap carriers with outputs := outputs, pending := pending } := by
  have bits (st : Station) :
      ({ resetWith strap carriers with outputs := outputs, pending := pending } : State).attentionBits st = 0 := by
    simp [State.attentionBits, State.alertBit, State.lockedOut, State.changedBit, State.replyBit, resetWith, State.reset,
      Alerts.any, Alerts.clear]
  constructor
  case maps =>
    intro m k hk
    rw [State.slotAt_of_lt _ _ hk]; simp [resetWith, State.reset]
  case points => intro p; simp [State.point, resetWith, State.reset, Point.reset]
  case links => intro d; simp [State.link, resetWith, Link.reset]
  case attention => intro st; simp [State.attentionByte, bits]
  case attentionLine => simp [State.attentionLine, bits]
  all_goals simp [State.context, resetWith, State.reset, Timing.reset, Alerts.clear]

/-- State.reset is what a reset with the strap inputs at 1 and every carrier absent leaves. -/
theorem reset_eq_resetWith : State.reset = resetWith 1 0 := by
  have hl : State.reset.links = Vector.ofFn fun d : Degree => Link.reset ((0 : BitVec 8).getLsbD d.val) := by
    ext i hi; simp [State.reset]
  rw [resetWith, ← hl]; rfl

namespace AfterReset

variable {strap : BitVec 3} {carriers : BitVec 8} {t : State} (h : AfterReset strap carriers t)
include h

theorem linksWellFormed : LinksWellFormed t := by
  refine ⟨fun d => ?_, by rw [h.sweepDiscards]; omega, by rw [h.unmatchedAcks]; omega⟩
  rw [h.links]
  simp [Link.wellFormed, Link.countsSaturate]

theorem tagsDistinct : TagsDistinct t := by
  intro p q a ha
  rw [h.outstanding] at ha; cases ha

theorem configurationLegal : ConfigurationLegal t := by
  refine ⟨?_, fun p => ?_, h.lockout 0, fun ho => ?_⟩
  · rw [h.timing]; simp [Timing.inRange]
  · rw [h.points]; decide
  · rw [h.nodeOpen] at ho; cases ho

theorem busConsistent : BusConsistent t := by
  intro st
  rw [h.intakes, h.bus]
  exact ⟨rfl, nofun, nofun⟩

theorem recordsWellFormed : RecordsWellFormed t := by
  intro i c hc
  rw [h.contexts] at hc; cases hc

theorem tableConsistent : TableConsistent t := by
  refine ⟨by rw [h.endedList]; exact List.nodup_nil, fun i => ?_, fun i j c hc => ?_⟩
  · rw [h.endedList, h.contexts]; simp
  · rw [h.contexts] at hc; cases hc

theorem changedSetsOwned : ChangedSetsOwned t := by
  intro st i hi
  rw [h.changed] at hi; cases hi

theorem mapsAgree : MapsAgree t := by
  intro m k i
  rw [h.maps m k k.isLt, State.holds, h.contexts]
  simp

theorem pointsConsistent : PointsConsistent t := by
  intro p
  have noneStands (i : CtxIx) (kind : CtxState → Bool) : t.stands p i kind = false := by
    rw [State.stands, h.contexts]; rfl
  have turn : t.turnAgrees p = true := by
    rw [State.turnAgrees, State.isOutstanding, h.points, h.outstanding]; rfl
  rw [h.points]
  refine ⟨List.nodup_nil, List.nodup_nil, fun i => ?_, fun i => ?_, fun i => ?_, turn, fun i c hc => ?_⟩
  · rw [noneStands]; simp
  · rw [noneStands]; simp
  · rw [noneStands]; simp
  · rw [h.contexts] at hc; cases hc

theorem loadAgrees : LoadAgrees t := by
  intro p
  have zero : t.chargeAt p = fun _ => 0 := by
    funext i; rw [State.chargeAt, h.contexts]
  rw [h.points, State.chargeSum, zero]
  exact ⟨by simp, Nat.zero_le _⟩

end AfterReset
end Sys2Proof.Machine

open Sys2Proof Sys2Proof.Machine

/-- Settles O3. -/
theorem resetCommandResetsEveryBlock : Obligations.ResetCommandResetsEveryBlock :=
  fun strap carriers s => ⟨_, rfl, afterReset_resetWith strap carriers s.outputs s.pending⟩

/-- Settles O60: State.reset is a state after reset, and each invariant follows from that. -/
theorem resetStateIsConsistent : Obligations.ResetStateIsConsistent := by
  have h : AfterReset 1 0 State.reset := by
    rw [reset_eq_resetWith]; exact afterReset_resetWith 1 0 [] []
  exact ⟨h, rfl, rfl, h.linksWellFormed, h.tagsDistinct, h.configurationLegal, h.busConsistent, h.recordsWellFormed,
    h.tableConsistent, h.changedSetsOwned, h.mapsAgree, h.pointsConsistent, h.loadAgrees,
    fun strap carriers s => ⟨_, rfl, rfl, rfl⟩⟩
end

section
/-! ## Slot maps against contexts: one rule for each kind of change (R3, R11) -/

namespace Sys2Proof.Machine

/-- The context that a HELD or LIT entry names (R1). -/
def Slot.names : Slot → Option CtxIx
  | .held i => some i
  | .lit i => some i
  | .free => none
  | .barred => none

theorem Slot.names_eq_some {x : Slot} {i : CtxIx} : x.names = some i ↔ x = .held i ∨ x = .lit i := by
  cases x <;> simp [Slot.names]

theorem Slot.names_bar (x : Slot) : x.bar.names = x.names := by cases x <;> rfl

theorem Slot.names_unbar (x : Slot) : x.unbar.names = x.names := by cases x <;> rfl

theorem CtxState.names_of_shows {st : CtxState} {i : CtxIx} {x : Slot} (h : st.shows i x = true) : x.names = some i := by
  cases x <;> simp_all [CtxState.shows, Slot.names]

/-- Whatever an entry may show for a context in the first state it may show in the second (R3, R11). -/
def CtxState.ShowsStay (a b : CtxState) : Prop := ∀ (i : CtxIx) (x : Slot), a.shows i x = true → b.shows i x = true

theorem CtxState.ShowsStay.refl (a : CtxState) : a.ShowsStay a := fun _ _ h => h

/-- A context that retires keeps its entries, HELD or LIT (R11). -/
theorem CtxState.ShowsStay.retiring (a : CtxState) (m : Mode) (x : RetireSub) : a.ShowsStay (.retiring m x) := by
  intro i y h
  cases y <;> simp_all [CtxState.shows]

/-- Before service every entry of a context is HELD, and stays so until service (R11). -/
theorem CtxState.ShowsStay.beforeService {a b : CtxState} (ha : ∀ i, a.shows i (.lit i) = false) (hb : b ≠ .inService) :
    a.ShowsStay b := by
  intro i y h
  have hn := CtxState.names_of_shows h
  rcases Slot.names_eq_some.1 hn with rfl | rfl
  · simpa [CtxState.shows] using hb
  · rw [ha i] at h; cases h

/-- A live record changes and goes on showing what it showed: its sides and its run stay, and its entries suit its new state. -/
structure Context.Follows (c d : Context) : Prop where
  sides : d.sides = c.sides
  run : d.run = c.run
  live : d.live = c.live
  shows : c.state.ShowsStay d.state

theorem Context.Follows.refl (c : Context) : c.Follows c := ⟨rfl, rfl, rfl, .refl _⟩

/-- A record that changes neither its sides, its run nor its state. -/
theorem Context.Follows.of_eq {c d : Context} (hs : d.sides = c.sides) (hr : d.run = c.run) (hx : d.state = c.state) :
    c.Follows d := ⟨hs, hr, by rw [Context.live, hx, Context.live], by rw [hx]; exact .refl _⟩

namespace MapsAgree

variable {s t : State}

/-- Agreement in terms of the named context alone. -/
theorem names_holds (h : MapsAgree s) {m : MapIx} {k : Nat} (hk : k < 384) {i : CtxIx} (hn : (s.slotAt m k).names = some i) :
    s.holds i m k = true := (h m ⟨k, hk⟩ i).1 (Slot.names_eq_some.1 hn)

theorem shows (h : MapsAgree s) {m : MapIx} {k : Nat} (hk : k < 384) {i : CtxIx} {c : Context} (hc : s.context i = some c)
    (hh : s.holds i m k = true) : c.state.shows i (s.slotAt m k) = true := (h m ⟨k, hk⟩ i).2 hh c hc

theorem congr (h : MapsAgree s) (hm : t.maps = s.maps) (hc : t.contexts = s.contexts) : MapsAgree t := by
  unfold MapsAgree State.slotAt State.holds State.context
  rw [hm, hc]; exact h

end MapsAgree

namespace State

variable {s t : State}

theorem holds_of_context {i : CtxIx} {c : Context} (hc : s.context i = some c) (m : MapIx) (k : Nat) :
    s.holds i m k = true ↔ c.live = true ∧ m ∈ c.sides.mapsUsed ∧ c.run.covers k = true := by
  simp [State.holds, hc, and_assoc]

theorem context_of_holds {i : CtxIx} {m : MapIx} {k : Nat} (h : s.holds i m k = true) : ∃ c, s.context i = some c := by
  cases hc : s.context i with
  | none => simp [State.holds, hc] at h
  | some c => exact ⟨c, rfl⟩

theorem holds_congr {i : CtxIx} (h : t.context i = s.context i) (m : MapIx) (k : Nat) : t.holds i m k = s.holds i m k := by
  simp only [State.holds, h]

end State

namespace MapsAgree

variable {s t : State}

/-- Records that change and go on showing what they showed keep the agreement. -/
theorem of_follows (h : MapsAgree s) (hm : t.maps = s.maps)
    (hc : ∀ j, t.context j = s.context j ∨ ∃ c d, s.context j = some c ∧ t.context j = some d ∧ c.Follows d) :
    MapsAgree t := by
  have hslot (m : MapIx) (k : Nat) : t.slotAt m k = s.slotAt m k := by simp only [State.slotAt, hm]
  have hold (j : CtxIx) (m : MapIx) (k : Nat) : t.holds j m k = s.holds j m k := by
    rcases hc j with e | ⟨c, d, e, f, hf⟩
    · exact State.holds_congr e m k
    · simp [State.holds, e, f, hf.sides, hf.run, hf.live]
  intro m k i
  rw [hslot, hold]
  refine ⟨(h m k i).1, fun hh d hd => ?_⟩
  rcases hc i with e | ⟨c, d', e, f, hf⟩
  · exact h.shows k.isLt (e ▸ hd) hh
  · obtain rfl : d' = d := Option.some.inj (f.symm.trans hd)
    exact hf.shows _ _ (h.shows k.isLt e hh)

/-- One record changes and goes on showing what it showed. -/
theorem setContext {i : CtxIx} {c d : Context} (h : MapsAgree s) (hc : s.context i = some c) (hf : c.Follows d) :
    MapsAgree (s.setContext i (some d)) := by
  refine h.of_follows rfl fun j => ?_
  rw [State.setContext_context]
  by_cases e : i = j
  · subst e; exact .inr ⟨c, d, hc, if_pos rfl, hf⟩
  · exact .inl (if_neg e)

theorem notify {i : CtxIx} {o : Station} (h : MapsAgree s) : MapsAgree (s.notify i o) := h.congr rfl rfl

/-- A state change of a live context after which its entries may stay as they are. -/
theorem enter {i : CtxIx} {b c : Context} {st : CtxState} (h : MapsAgree s) (hb : s.context i = some b)
    (hs : c.sides = b.sides) (hr : c.run = b.run) (hl : b.live = true) (hst : st ≠ .ended) (hx : b.state.ShowsStay st) :
    MapsAgree (s.enter i c st) := by
  have hf : b.Follows { c with state := st, watchTimer := watchLoad s.timing c st } :=
    ⟨hs, hr, by rw [hl]; simpa [Context.live] using hst, hx⟩
  exact (h.setContext hb hf).notify

/-- Every record changes in fields that no entry of a map shows. -/
theorem mapContexts {f : Context → Context} (h : MapsAgree s) (hf : ∀ c : Context, c.Follows (f c)) :
    MapsAgree (s.mapContexts f) := by
  refine h.of_follows rfl fun j => ?_
  rw [State.mapContexts_context]
  cases hc : s.context j with
  | none => exact .inl rfl
  | some c => exact .inr ⟨c, f c, rfl, rfl, hf c⟩

/-- The record at `i` is written with its run on its maps: where the run was the record's own or not occupied, no entry outside it
named the record, and the new entry suits the new record. -/
theorem rewritten {i : CtxIx} {d : Context} {x : Slot} (h : MapsAgree s)
    (hi : t.context i = some d) (hj : ∀ j, j ≠ i → t.context j = s.context j)
    (hslot : ∀ (m : MapIx) (k : Nat), k < 384 →
      t.slotAt m k = if m ∈ d.sides.mapsUsed ∧ d.run.covers k = true then x else s.slotAt m k)
    (inside : ∀ (m : MapIx) (k : Nat), k < 384 → m ∈ d.sides.mapsUsed → d.run.covers k = true →
      ∀ j, (s.slotAt m k).names = some j → j = i)
    (outside : ∀ (m : MapIx) (k : Nat), k < 384 → (s.slotAt m k).names = some i → m ∈ d.sides.mapsUsed ∧ d.run.covers k = true)
    (entry : if d.live = true then d.state.shows i x = true else x.names = none) : MapsAgree t := by
  intro m k j
  rw [hslot m k k.isLt, ← Slot.names_eq_some]
  by_cases hin : m ∈ d.sides.mapsUsed ∧ d.run.covers k = true
  · rw [if_pos hin]
    by_cases hl : d.live = true
    · rw [if_pos hl] at entry
      have hx := CtxState.names_of_shows entry
      refine ⟨fun hn => ?_, fun hh c hc => ?_⟩
      · obtain rfl : i = j := Option.some.inj (hx.symm.trans hn)
        exact (State.holds_of_context hi m k).2 ⟨hl, hin⟩
      · by_cases e : j = i
        · subst e; obtain rfl : d = c := Option.some.inj (hi.symm.trans hc); exact entry
        · rw [hj j e] at hc
          rw [State.holds_congr (hj j e)] at hh
          exact absurd (inside m k k.isLt hin.1 hin.2 j (CtxState.names_of_shows (h.shows k.isLt hc hh))) e
    · rw [if_neg hl] at entry
      refine ⟨fun hn => (by rw [entry] at hn; cases hn), fun hh c hc => ?_⟩
      by_cases e : j = i
      · subst e; exact absurd ((State.holds_of_context hi m k).1 hh).1 hl
      · rw [hj j e] at hc
        rw [State.holds_congr (hj j e)] at hh
        exact absurd (inside m k k.isLt hin.1 hin.2 j (CtxState.names_of_shows (h.shows k.isLt hc hh))) e
  · rw [if_neg hin]
    by_cases e : j = i
    · subst e
      exact ⟨fun hn => absurd (outside m k k.isLt hn) hin,
        fun hh => absurd ((State.holds_of_context hi m k).1 hh).2 hin⟩
    · rw [State.holds_congr (hj j e), hj j e]
      exact ⟨h.names_holds k.isLt, fun hh c hc => h.shows k.isLt hc hh⟩

/-- A live context's run is rewritten on its maps, with its record: it enters service, or it ends. -/
theorem rewriteOwn {i : CtxIx} {c d : Context} {x : Slot} (h : MapsAgree s) (hc : s.context i = some c) (hlive : c.live = true)
    (hs : d.sides = c.sides) (hr : d.run = c.run)
    (hi : t.context i = some d) (hj : ∀ j, j ≠ i → t.context j = s.context j)
    (hslot : ∀ (m : MapIx) (k : Nat), k < 384 →
      t.slotAt m k = if m ∈ c.sides.mapsUsed ∧ c.run.covers k = true then x else s.slotAt m k)
    (entry : if d.live = true then d.state.shows i x = true else x.names = none) : MapsAgree t := by
  refine h.rewritten hi hj (by rwa [hs, hr]) ?_ ?_ entry
  · rw [hs, hr]
    intro m k hk hm hcov j hn
    have := CtxState.names_of_shows (h.shows hk hc ((State.holds_of_context hc m k).2 ⟨hlive, hm, hcov⟩))
    exact Option.some.inj (hn.symm.trans this)
  · rw [hs, hr]
    intro m k hk hn
    exact ((State.holds_of_context hc m k).1 (h.names_holds hk hn)).2

/-- A record that is FREE or ENDED is created over a FREE run (R5, R26, R28). -/
theorem created {i : CtxIx} {d : Context} {x : Slot} (h : MapsAgree s) (hold : ∀ c ∈ s.context i, c.live = false)
    (hfree : s.conflict d.sides.mapsUsed d.run = none)
    (hi : t.context i = some d) (hj : ∀ j, j ≠ i → t.context j = s.context j)
    (hslot : ∀ (m : MapIx) (k : Nat), k < 384 →
      t.slotAt m k = if m ∈ d.sides.mapsUsed ∧ d.run.covers k = true then x else s.slotAt m k)
    (hl : d.live = true) (entry : d.state.shows i x = true) : MapsAgree t := by
  refine h.rewritten hi hj hslot ?_ ?_ (by rwa [if_pos hl])
  · intro m k _ hm hcov j hn
    rw [(s.conflict_eq_none _ _).1 hfree k hcov m hm] at hn; cases hn
  · intro m k hk hn
    have hh := h.names_holds hk hn
    obtain ⟨c, hc⟩ := State.context_of_holds hh
    rw [State.holds_of_context hc, hold c hc] at hh
    cases hh.1

end MapsAgree
end Sys2Proof.Machine
end

section
/-! ## The engines keep the maps in agreement (R11, R12, R13) -/

namespace Sys2Proof.Machine

/-- The state of a context that retires. -/
def CtxState.isRetiring : CtxState → Bool
  | .retiring _ _ => true
  | _ => false

theorem CtxState.isRetiring_iff {st : CtxState} : st.isRetiring = true ↔ ∃ m x, st = .retiring m x := by
  cases st <;> simp [CtxState.isRetiring]

/-- The state before service of a context that does not retire: its entries are HELD (R11). -/
def CtxState.early : CtxState → Bool
  | .probing => true
  | .reserved => true
  | .waitBudget => true
  | .ramping _ _ => true
  | .passed => true
  | .inService => false
  | .retiring _ _ => false
  | .ended => false

theorem live_of_early {c : Context} (h : c.state.early = true) : c.live = true := by
  unfold Context.live
  cases hc : c.state <;> simp_all [CtxState.early]

theorem live_of_isRetiring {c : Context} (h : c.state.isRetiring = true) : c.live = true := by
  obtain ⟨m, x, e⟩ := CtxState.isRetiring_iff.1 h
  simp [Context.live, e]

theorem CtxState.ShowsStay.early {a b : CtxState} (ha : a.early = true) (hb : b ≠ .inService) : a.ShowsStay b := by
  refine .beforeService (fun i => ?_) hb
  cases a <;> simp_all [CtxState.early, CtxState.shows]

theorem Context.refresh_follows (p : PointIx) (c : Context) : c.Follows (c.refresh p) := by
  unfold Context.refresh
  split
  · exact .of_eq rfl rfl rfl
  · exact .refl c

theorem Context.measure_follows (p : PointIx) (r : List Word16) (c : Context) : c.Follows (c.measure p r) := by
  unfold Context.measure
  split
  · exact .of_eq rfl rfl rfl
  · exact .refl c

namespace MapsAgree

variable {s : State}

/-- A state change of a context before service, to any state but IN_SERVICE and ENDED. -/
theorem enterEarly {i : CtxIx} {b c : Context} {st : CtxState} (h : MapsAgree s) (hb : s.context i = some b)
    (hs : c.sides = b.sides) (hr : c.run = b.run) (he : b.state.early = true) (hst : st ≠ .ended) (hsv : st ≠ .inService) :
    MapsAgree (s.enter i c st) := h.enter hb hs hr (live_of_early he) hst (.early he hsv)

/-- A live context retires. -/
theorem enterRetiring {i : CtxIx} {b c : Context} {m : Mode} {x : RetireSub} (h : MapsAgree s) (hb : s.context i = some b)
    (hs : c.sides = b.sides) (hr : c.run = b.run) (hl : b.live = true) : MapsAgree (s.enter i c (.retiring m x)) :=
  h.enter hb hs hr hl nofun (.retiring _ _ _)

/-- A retiring context's record changes within its retirement. -/
theorem setRetiring {i : CtxIx} {b d : Context} (h : MapsAgree s) (hb : s.context i = some b) (hs : d.sides = b.sides)
    (hr : d.run = b.run) (hret : b.state.isRetiring = true) (hd : d.state.isRetiring = true) :
    MapsAgree (s.setContext i (some d)) := by
  obtain ⟨m, x, hb'⟩ := CtxState.isRetiring_iff.1 hret
  obtain ⟨m', x', hd'⟩ := CtxState.isRetiring_iff.1 hd
  exact h.setContext hb ⟨hs, hr, by rw [Context.live, hd', Context.live, hb']; rfl, by rw [hd']; exact .retiring _ _ _⟩

/-- A record before service changes and stays before service. -/
theorem setEarly {i : CtxIx} {b d : Context} (h : MapsAgree s) (hb : s.context i = some b) (hs : d.sides = b.sides)
    (hr : d.run = b.run) (he : b.state.early = true) (hd : d.state.early = true) :
    MapsAgree (s.setContext i (some d)) := by
  refine h.setContext hb ⟨hs, hr, by rw [live_of_early he, live_of_early hd], .early he ?_⟩
  intro e; rw [e] at hd; cases hd

/-! ### What touches neither a map nor a record -/

theorem modPoint (h : MapsAgree s) (p : PointIx) (f : Point → Point) : MapsAgree (s.modPoint p f) := h.congr rfl rfl

theorem modLink (h : MapsAgree s) (d : Degree) (f : Link → Link) : MapsAgree (s.modLink d f) := h.congr rfl rfl

theorem offer (h : MapsAgree s) (d : Degree) (n : Word32) (b : FrameBody) : MapsAgree (s.offer d n b) := h.congr rfl rfl

theorem offerTo (h : MapsAgree s) (d : Option Degree) (n : Word32) (b : FrameBody) : MapsAgree (s.offerTo d n b) :=
  h.congr (by simp) (by simp)

theorem offerAborts (h : MapsAgree s) (c : Context) (o : Cause) (n : Word16) : MapsAgree (s.offerAborts c o n) :=
  h.congr (by simp) (by simp)

theorem offerSetting (h : MapsAgree s) (p : PointIx) (r : Run) (b : SettingBody) : MapsAgree (s.offerSetting p r b) :=
  h.congr rfl rfl

/-! ### Turns -/

theorem turnBegun {p : PointIx} {i : CtxIx} {c : Context} (h : MapsAgree s) (hc : s.context i = some c)
    (hr : c.state.isRetiring = true) (m : Mode) : MapsAgree (s.turnBegun p i c m) := by
  refine (h.setRetiring hc ?_ ?_ hr rfl).offerSetting _ _ _ <;> cases m <;> rfl

theorem hardTurn {p : PointIx} {i : CtxIx} {c : Context} (h : MapsAgree s) (hc : s.context i = some c)
    (hr : c.state.isRetiring = true) : MapsAgree (s.hardTurn p i) := by
  rw [s.hardTurn_eq hc]; exact h.turnBegun hc hr _

theorem retireTurn {p : PointIx} {i : CtxIx} {c : Context} (h : MapsAgree s) (hc : s.context i = some c)
    (hr : c.state.isRetiring = true) (m : Mode) : MapsAgree (s.retireTurn p i m) := by
  rw [s.retireTurn_eq hc]; exact h.turnBegun hc hr _

theorem retireHolder {p : PointIx} {i : CtxIx} {c : Context} (h : MapsAgree s) (hc : s.context i = some c)
    (hl : c.live = true) (e : Ending) (m : Mode) : MapsAgree (s.retireHolder p i c e m) := by
  have hent : MapsAgree ((s.stopCounting p).enter i { c with abortPending := none, ending := some e } (.retiring m .actuating)) :=
    (h.modPoint p _).enterRetiring hc rfl rfl hl
  exact hent.retireTurn (State.enter_context _ i i _ _ |>.trans (if_pos rfl)) rfl m

theorem rampFault {p : PointIx} {i : CtxIx} {c : Context} (h : MapsAgree s) (hc : s.context i = some c)
    (hl : c.live = true) (f : Cause) : MapsAgree (s.rampFault p i c f) :=
  (h.offerAborts c f s.nodeId).retireHolder (by simpa [State.context] using hc) hl _ _

/-- A live context enters service with its run LIT (R11). -/
theorem enterService {i : CtxIx} {b c : Context} (h : MapsAgree s) (hb : s.context i = some b)
    (hs : c.sides = b.sides) (hr : c.run = b.run) (hl : b.live = true) :
    MapsAgree ((s.enter i c .inService).writeRun b.sides.mapsUsed b.run (.lit i)) := by
  refine h.rewriteOwn (d := { c with state := .inService, watchTimer := none }) (x := .lit i) hb hl hs hr ?_ ?_ ?_ ?_
  · simp only [State.context, State.writeRun_contexts]
    exact (s.enter_context i i c .inService).trans (if_pos rfl)
  · intro j hj
    simp only [State.context, State.writeRun_contexts]
    exact (s.enter_context i j c .inService).trans (if_neg (Ne.symm hj))
  · exact fun m k hk => State.writeRun_slotAt _ _ _ _ m hk
  · simp [Context.live, CtxState.shows]

theorem settleTurn {p : PointIx} {i : CtxIx} {c : Context} (h : MapsAgree s) (hc : s.context i = some c)
    (he : c.state.early = true) : MapsAgree (s.settleTurn p i c) := by
  have hr : MapsAgree ((s.refreshReferences p).releaseLock p) := (h.mapContexts (Context.refresh_follows p)).modPoint _ _
  obtain ⟨b, hb, hf⟩ : ∃ b, ((s.refreshReferences p).releaseLock p).context i = some b ∧ c.Follows b :=
    ⟨c.refresh p, by
      have := s.mapContexts_context (fun c => c.refresh p) i
      rw [hc] at this; exact this, Context.refresh_follows p c⟩
  have hbe : b.state.early = true := by
    have : b = c.refresh p := by
      have := s.mapContexts_context (fun c => c.refresh p) i
      rw [hc] at this; exact Option.some.inj (hb.symm.trans this)
    rw [this]; unfold Context.refresh; split <;> exact he
  rw [State.settleTurn_eq]
  split
  · refine MapsAgree.offerTo ?_ _ _ _
    rw [← hf.sides, ← hf.run]
    exact hr.enterService hb hf.sides.symm hf.run.symm (live_of_early hbe)
  · refine MapsAgree.offerTo ?_ _ _ _
    exact hr.enterEarly hb hf.sides.symm hf.run.symm hbe nofun nofun

theorem forwardStep {p : PointIx} {i : CtxIx} {c : Context} (h : MapsAgree s) (hc : s.context i = some c)
    (he : c.state.early = true) (n a : Nat) : MapsAgree (s.forwardStep p i c n a) :=
  (h.setEarly hc (by rfl) (by rfl) he (by rfl)).offerSetting _ _ _

theorem grantLoop (p : PointIx) (l : List CtxIx) (h : MapsAgree s) : MapsAgree (State.grantLoop p l s) := by
  induction l generalizing s with
  | nil => exact h
  | cons i rest ih =>
    unfold State.grantLoop
    split
    · exact h
    next c hc =>
      dsimp only
      have hm := h.modPoint p fun q => { q with queue := rest, holder := some i }
      split
      next hst =>
        have he : c.state.early = true := by rw [hst]; rfl
        split
        · exact h
        · exact hm.forwardStep hc he _ _
        · exact hm.forwardStep hc he _ _
        · exact ih (hm.settleTurn hc he)
        · exact hm.rampFault hc (live_of_early he) _
      next hst => exact hm.retireTurn hc (by rw [hst]; rfl) _
      all_goals exact h

theorem grant (h : MapsAgree s) (p : PointIx) : MapsAgree (s.grant p) := by
  unfold State.grant
  split
  · split
    · exact (h.modPoint _ _).offerSetting _ _ _
    · exact h
    · exact h.grantLoop p _
  · exact h

/-! ### Admission -/

theorem admitLoop (p : PointIx) (l : List CtxIx) (h : MapsAgree s) : MapsAgree (State.admitLoop p l s) := by
  induction l generalizing s with
  | nil => exact h
  | cons i rest ih =>
    unfold State.admitLoop
    split
    · exact h
    next c hc =>
      split
      next hw =>
        refine ih (MapsAgree.enterEarly (h.modPoint p _) hc rfl rfl ?_ nofun nofun)
        rw [hw.1]; rfl
      · exact h

theorem attempt (h : MapsAgree s) (p : PointIx) : MapsAgree (s.attempt p) := (h.admitLoop p _).grant p

theorem joinLine {i : CtxIx} {b c : Context} (h : MapsAgree s) (hb : s.context i = some b) (hs : c.sides = b.sides)
    (hr : c.run = b.run) (he : b.state.early = true) : MapsAgree (s.joinLine i c) := by
  have hent : MapsAgree (s.enter i c .waitBudget) := h.enterEarly hb hs hr he nofun nofun
  exact (hent.modPoint _ _).attempt _

/-! ### Endings -/

/-- A live context ends, and its run shows no context any more (R12, R13). -/
theorem ended {t : State} {i : CtxIx} {c d : Context} {x : Slot} (h : MapsAgree s) (hc : s.context i = some c)
    (hl : c.live = true) (hm : t.maps = (s.writeRun c.sides.mapsUsed c.run x).maps) (hx : x.names = none)
    (hs : d.sides = c.sides) (hr : d.run = c.run) (hd : d.state = .ended)
    (hi : t.context i = some d) (hj : ∀ j, j ≠ i → t.context j = s.context j) : MapsAgree t := by
  refine h.rewriteOwn hc hl hs hr hi hj (x := x) (fun m k hk => ?_) (by simp [Context.live, hd, hx])
  rw [← State.writeRun_slotAt s _ _ _ m hk]
  simp only [State.slotAt, hm]

/-- What both ends of a context do: the points change, the run is rewritten, the record ENDED (R87, R88, R89). -/
theorem endRecord {t : State} {i : CtxIx} {c : Context} {x : Slot} (h : MapsAgree s) (hc : s.context i = some c)
    (hl : c.live = true) (hx : x.names = none) (hm : t.maps = (s.writeRun c.sides.mapsUsed c.run x).maps)
    (ht : t.contexts = s.contexts) (e : Ending) : MapsAgree (t.endRecord i c e) := by
  have hctx (j : CtxIx) : t.context j = s.context j := by simp only [State.context, ht]
  refine h.ended hc hl hm hx (d := { c with
    charge := none, lastMeasured := none, reference := none, abortPending := none, ending := some e
    state := .ended, watchTimer := none }) rfl rfl rfl ?_ fun j hj => ?_
  · exact (t.endRecord_context i i c e).trans (if_pos rfl)
  · exact (t.endRecord_context i j c e).trans ((if_neg (Ne.symm hj)).trans (hctx j))

theorem endNeverLit {i : CtxIx} {c : Context} (h : MapsAgree s) (hc : s.context i = some c) (hl : c.live = true)
    (e : Ending) : MapsAgree (s.endNeverLit i c e) := by
  unfold State.endNeverLit
  dsimp only
  have hend := h.endRecord (t := ((s.modPoint c.point fun q =>
      { q with line := q.line.erase i, queue := q.queue.erase i }).discharge c).writeRun c.sides.mapsUsed c.run .free)
    hc hl rfl (State.writeRun_maps_congr (by simp) _ _ _) (by simp) e
  split
  · exact hend.attempt _
  · exact hend

theorem teardownAtDark (h : MapsAgree s) (c : Context) (b : Bool) : MapsAgree (s.teardownAtDark c b) := by
  unfold State.teardownAtDark; split
  · exact h.offer _ _ _
  · exact h

theorem dark {p : PointIx} {i : CtxIx} {c : Context} (h : MapsAgree s) (hc : s.context i = some c) (hl : c.live = true) :
    MapsAgree (s.dark p i c) := by
  unfold State.dark
  split
  · refine (teardownAtDark ?_ c _).attempt p
    exact h.endRecord hc hl rfl (State.writeRun_maps_congr (by simp [State.releaseLock]) _ _ _) (by simp [State.releaseLock]) _
  · exact h

theorem darkUnconfirmed {p : PointIx} {i : CtxIx} {c : Context} (h : MapsAgree s) (hc : s.context i = some c)
    (hl : c.live = true) : MapsAgree (s.darkUnconfirmed p i c) := by
  unfold State.darkUnconfirmed
  split
  · refine (teardownAtDark ?_ c _).attempt p
    exact h.endRecord (x := .barred) hc hl rfl (State.writeRun_maps_congr (s := s) (by simp [State.releaseLock]) _ _ _)
      (by simp [State.releaseLock]) _
  · exact h

/-! ### Aborts -/

theorem retireAtTail {i : CtxIx} {c : Context} (h : MapsAgree s) (hc : s.context i = some c) (hl : c.live = true)
    (e : Ending) (m : Mode) : MapsAgree (s.retireAtTail i c e m) := by
  have hent : MapsAgree (s.enter i { c with ending := some e } (.retiring m .queued)) := h.enterRetiring hc rfl rfl hl
  exact (hent.modPoint _ _).grant _

theorem abortEffect {i : CtxIx} {c : Context} (h : MapsAgree s) (hc : s.context i = some c) (hl : c.live = true)
    (e : Ending) : MapsAgree (s.abortEffect i c e) := by
  unfold State.abortEffect
  split
  · exact h.endNeverLit hc hl e
  · exact h.endNeverLit hc hl e
  · exact h.endNeverLit hc hl e
  · split
    · exact h.endNeverLit hc hl e
    · exact h.enterRetiring hc rfl rfl hl
  · split
    · exact h.setContext hc (.of_eq rfl rfl rfl)
    · exact h.retireHolder hc hl _ _
  · exact h.retireAtTail hc hl _ _
  · exact h.retireAtTail hc hl _ _
  · exact h
  · exact h

theorem localAbort {i : CtxIx} {c : Context} (h : MapsAgree s) (hc : s.context i = some c) (hl : c.live = true)
    (e : Ending) : MapsAgree (s.localAbort i c e) :=
  (h.offerAborts c _ _).abortEffect (by simpa [State.context] using hc) hl e

/-! ### Measurement -/

theorem violation {p : PointIx} {i : CtxIx} {c : Context} (h : MapsAgree s) (hc : s.context i = some c)
    (he : c.state.early = true) (n : Nat) : MapsAgree (s.violation p i c n) := by
  unfold State.violation
  split
  · exact h.rampFault hc (live_of_early he) _
  · split
    · exact (h.setEarly hc (by rfl) (by rfl) he (by rfl)).offerSetting _ _ _
    · exact h.rampFault hc (live_of_early he) _
    · exact h.rampFault hc (live_of_early he) _

theorem requeue {p : PointIx} {i : CtxIx} {st : CtxState} {c : Context}
    (h : MapsAgree (s.setContext i (some { c with state := st }))) : MapsAgree (s.requeue p i c st) :=
  (h.modPoint _ _).grant _

theorem measureForward {p : PointIx} {i : CtxIx} {c : Context} (h : MapsAgree s) (hc : s.context i = some c)
    (he : c.state.early = true) (n : Nat) : MapsAgree (s.measureForward p i c n) := by
  unfold State.measureForward
  split
  · exact h.violation hc he n
  · split
    · exact h
    · split
      · exact (h.settleTurn hc he).grant p
      · exact h.rampFault hc (live_of_early he) _
      · exact requeue (h.setEarly hc rfl rfl he rfl)

theorem measureBackoff {p : PointIx} {i : CtxIx} {c : Context} (h : MapsAgree s) (hc : s.context i = some c)
    (he : c.state.early = true) (n : Nat) : MapsAgree (s.measureBackoff p i c n) := by
  unfold State.measureBackoff
  split
  · exact h.violation hc he n
  · exact requeue (h.setEarly hc rfl rfl he rfl)

theorem countSweep (h : MapsAgree s) (p : PointIx) : MapsAgree (s.countSweep p) := by
  unfold State.countSweep
  split
  · exact h
  · split
    next c k hc _ =>
      have hstop := h.modPoint p fun q => { q with settle := 0, sweepTimer := none }
      split
      next hst =>
        split
        · exact hstop.measureForward hc (by rw [hst]; rfl) _
        · exact h.modPoint _ _
      next hst =>
        split
        · exact hstop.measureBackoff hc (by rw [hst]; rfl) _
        · exact h.modPoint _ _
      next hst =>
        split
        · exact requeue (hstop.setRetiring hc rfl rfl (by rw [hst]; rfl) rfl)
        · exact h.modPoint _ _
      · exact h
    · exact h

theorem acceptSweep (h : MapsAgree s) (p : PointIx) (q : Byte) (r : List Word16) : MapsAgree (s.acceptSweep p q r) :=
  ((h.modPoint _ _).mapContexts (Context.measure_follows p r)).countSweep p

/-! ### Outcomes and expiries -/

theorem raiseActuator (h : MapsAgree s) : MapsAgree s.raiseActuator := h.congr rfl rfl

theorem serviceOutcome (h : MapsAgree s) (p : PointIx) (o : SettingOutcome) : MapsAgree (s.serviceOutcome p o) := by
  unfold State.serviceOutcome
  cases o
  · exact (h.modPoint _ _).grant _
  · exact (h.modPoint _ _).raiseActuator.grant _
  · exact (h.modPoint _ _).raiseActuator.grant _

theorem rampOutcome {p : PointIx} {i : CtxIx} {c : Context} (h : MapsAgree s) (hc : s.context i = some c)
    (he : c.state.early = true) (x : RampSub) (n : Nat) (o : SettingOutcome) : MapsAgree (s.rampOutcome p i c x n o) := by
  cases o
  · exact (h.setEarly hc (by rfl) (by rfl) he (by rfl)).modPoint _ _
  · exact h.rampFault hc (live_of_early he) _
  · exact h.rampFault hc (live_of_early he) _

theorem abortOutcome {p : PointIx} {i : CtxIx} {c : Context} (h : MapsAgree s) (hc : s.context i = some c)
    (hl : c.live = true) (e : Ending) (o : SettingOutcome) : MapsAgree (s.abortOutcome p i c e o) := by
  cases o <;> exact h.retireHolder hc hl _ _

theorem gradualOutcome {p : PointIx} {i : CtxIx} {c : Context} (h : MapsAgree s) (hc : s.context i = some c)
    (hr : c.state.isRetiring = true) (o : SettingOutcome) : MapsAgree (s.gradualOutcome p i c o) := by
  unfold State.gradualOutcome
  split
  · split
    · exact h.dark hc (live_of_isRetiring hr)
    · exact (h.setRetiring hc (by rfl) (by rfl) hr (by rfl)).modPoint _ _
  · exact h.hardTurn hc hr
  · exact h.hardTurn hc hr

theorem hardOutcome {p : PointIx} {i : CtxIx} {c : Context} (h : MapsAgree s) (hc : s.context i = some c)
    (hl : c.live = true) (o : SettingOutcome) : MapsAgree (s.hardOutcome p i c o) := by
  cases o
  · exact h.dark hc hl
  · exact h.darkUnconfirmed hc hl
  · exact h.darkUnconfirmed hc hl

theorem deliver (h : MapsAgree s) (p : PointIx) (o : SettingOutcome) : MapsAgree (s.deliver p o) := by
  unfold State.deliver
  split
  · exact h.serviceOutcome p o
  · split
    · exact h
    · split
      · exact h
      next c hc =>
        split
        next hst =>
          have he : c.state.early = true := by rw [hst]; rfl
          split
          · exact h.abortOutcome hc (live_of_early he) _ o
          · exact h.rampOutcome hc he _ _ o
        next hst => exact h.gradualOutcome hc (by rw [hst]; rfl) o
        next hst => exact h.hardOutcome hc (live_of_isRetiring (by rw [hst]; rfl)) o
        · exact h

theorem sweepExpiry (h : MapsAgree s) (p : PointIx) : MapsAgree (s.sweepExpiry p) := by
  unfold State.sweepExpiry
  split
  · split
    · exact h
    next c hc =>
      split
      next hst => exact h.rampFault hc (live_of_early (by rw [hst]; rfl)) _
      next hst => exact (h.modPoint p _).hardTurn hc (by rw [hst]; rfl)
      · exact h
  · exact h

end MapsAgree
end Sys2Proof.Machine
end

section
/-! ## What commands, frames and bus events keep -/

namespace Sys2Proof.Machine

/-- Where a verdict accepts, the state it leaves meets a predicate; a refusal leaves no state of its own (R161). -/
def Verdict.Leaves (P : State → Prop) : Verdict → Prop
  | .accepted t _ => P t
  | .refused _ => True

theorem Verdict.leaves_refused (P : State → Prop) (r : ReplyCause) : (Verdict.refused r).Leaves P := trivial

theorem stationZero_leaves {P : State → Prop} {body : List Byte → State → Verdict} {st : Station} {args : List Byte} {s : State}
    (h : (body args s).Leaves P) : (stationZero body st args s).Leaves P := by
  unfold stationZero; split
  · exact h
  · exact Verdict.leaves_refused P _

/-- An execution keeps what the taking of an intake, the body of its command and the posting of a reply keep (R152, R161). -/
theorem runCommand_keeps {P : State → Prop} {ofRow : Command → Bool} {layout : List Byte → Bool}
    {body : Station → List Byte → State → Verdict} {s t : State} (hs : P s) (taken : ∀ st, P (s.taken st))
    (holder : ∀ (u : State) (st : Station) (x : Option (List Byte)), P u → P (u.setHolder st x))
    (hb : ∀ st args, (body st args (s.taken st)).Leaves P) (h : runCommand ofRow layout body s = .next t) : P t := by
  unfold runCommand at h
  split at h
  next st c _ =>
    split at h
    · cases h
      rw [State.execute, takeIntake_eq_taken]
      split
      · exact holder _ st _ (taken st)
      · have hv := hb st c.rest
        cases hbody : body st c.rest (s.taken st) with
        | accepted u data => rw [hbody] at hv; exact holder u st _ hv
        | refused r => exact holder _ st _ (taken st)
    · cases h; exact hs
  · cases h; exact hs

/-- The taking of a frame keeps what each of its ends keeps (R131). -/
theorem State.takeFrame_keeps {P : State → Prop} {s : State} {d : Degree} {ofRow : Byte → Bool} {act : Frame → State → State}
    (hs : P s) (malformed : P ((s.removeHead d).countMalformed d)) (acted : ∀ f, P (act f (s.removeHead d))) :
    P (s.takeFrame d ofRow act) := by
  unfold State.takeFrame
  split
  · split
    · split
      · exact acted _
      · exact malformed
    · exact hs
  · exact hs

/-- A frame for a context keeps what its count as stray and its effect on a live context keep (R98). -/
theorem State.forContext_keeps {P : State → Prop} {s : State} {d : Degree} {frame : Frame} {row : Context → Bool}
    {effect : CtxIx → Context → State → State} (stray : P (s.countStray d))
    (taken : ∀ i c, s.context i = some c → c.live = true → row c = true → P (effect i c s)) :
    P (s.forContext d frame row effect) := by
  unfold State.forContext
  split
  next i c hf =>
    obtain ⟨hc, hl, -⟩ := s.findLive_some hf
    split
    next hr => exact taken i c hc hl hr
    · exact stray
  · exact stray

/-! ### The shelf bus touches the SBI alone (R149 to R154) -/

namespace State

variable (s : State)

theorem endTransaction_eq : s.endTransaction =
    { s with bus := s.endTransaction.bus, intakes := s.endTransaction.intakes } := by
  unfold State.endTransaction
  dsimp only
  split
  · split <;> rfl
  all_goals rfl

theorem startTransaction_eq (b : BusStart) : s.startTransaction b = { s with
    bus := (s.startTransaction b).bus
    intakes := (s.startTransaction b).intakes
    holders := (s.startTransaction b).holders
    outputs := (s.startTransaction b).outputs } := by
  unfold State.startTransaction
  rw [endTransaction_eq]
  dsimp only
  split
  · rfl
  · split
    · rfl
    · split
      · rfl
      · split
        · rfl
        · split
          · rfl
          · split <;> rfl

theorem openTransaction_eq (b : Option BusStart) : s.openTransaction b = { s with
    bus := (s.openTransaction b).bus
    intakes := (s.openTransaction b).intakes
    holders := (s.openTransaction b).holders
    outputs := (s.openTransaction b).outputs } := by
  cases b with
  | none => rfl
  | some b => exact s.startTransaction_eq b

theorem writeByte_eq (st : Station) (b : Byte) (e : Bool) : s.writeByte st b e =
    { s with bus := (s.writeByte st b e).bus, intakes := (s.writeByte st b e).intakes } := by
  unfold State.writeByte
  dsimp only
  split <;> rfl

theorem writeBytes_eq (l : List Byte) (e : Bool) : State.writeBytes l e s =
    { s with bus := (State.writeBytes l e s).bus, intakes := (State.writeBytes l e s).intakes } := by
  induction l generalizing s with
  | nil => rfl
  | cons b rest ih =>
    unfold State.writeBytes
    split
    · rw [ih, writeByte_eq]
    · split
      · rfl
      · exact ih s
    · rfl

theorem readBytes_eq (n : Nat) : State.readBytes n s =
    { s with bus := (State.readBytes n s).bus, outputs := (State.readBytes n s).outputs } := by
  induction n generalizing s with
  | zero => rfl
  | succ n ih =>
    unfold State.readBytes
    split
    · rfl
    · rfl
    · rw [ih]
    · rfl

end State

/-! ### The maps in agreement: commands -/

/-- The record that a creation chooses carries no live context (R26, R30). -/
theorem chosen_not_live {s : State} (ht : TableConsistent s) {i : CtxIx} (h : s.chooseRecord = some i) :
    ∀ c ∈ s.context i, c.live = false := by
  intro c hc
  rcases s.chooseRecord_some h with ⟨hn, -⟩ | ⟨-, hh⟩
  · rw [hn] at hc; cases hc
  · obtain ⟨-, hended, -⟩ := ht
    have hm := (hended i).1 (List.mem_of_mem_head? hh)
    rw [hc] at hm
    simpa [Context.live] using hm

/-- What the search for a run answers is FREE (R10). -/
theorem searchRun_free {s : State} {m : MapIx} {w f : Nat} {high : Bool} (h : s.searchRun m w high = some f) :
    s.conflict [m] ⟨f, w⟩ = none := by
  have := List.find?_some h
  exact Option.isNone_iff_eq_none.1 this

/-- What the claim of a BEGIN LIGHTPATH answers is FREE (R5, R10). -/
theorem beginClaim_free {s : State} {m : MapIx} {a : BeginArgs} {first : Nat} (h : beginClaim s m a = .inl first) :
    s.conflict [m] ⟨first, a.width⟩ = none := by
  unfold beginClaim at h
  split at h
  · split at h
    next f hf =>
      cases h
      exact searchRun_free hf
    · cases h
  · split at h
    · cases h
    next hf => cases h; exact hf

namespace MapsAgree

variable {s t : State}

/-- A creation over a claimed run (R5, R28): the run shows the new context. -/
theorem create {i : CtxIx} {c : Context} {st : CtxState} {x : Slot} {u : State} (h : MapsAgree s)
    (ht : TableConsistent s) (hi : s.chooseRecord = some i) (hfree : s.conflict c.sides.mapsUsed c.run = none)
    (hmaps : u.maps = (s.writeRun c.sides.mapsUsed c.run x).maps) (hctx : u.contexts = s.contexts)
    (hl : st ≠ .ended) (hx : st.shows i x = true) : MapsAgree (u.create i c st) := by
  refine h.created (d := { c with state := st, watchTimer := watchLoad u.timing c st }) (x := x)
    (chosen_not_live ht hi) hfree ?_ ?_ ?_ ?_ hx
  · exact (u.create_context i i c st).trans (if_pos rfl)
  · intro j hj
    exact (u.create_context i j c st).trans ((if_neg (Ne.symm hj)).trans (by simp only [State.context, hctx]))
  · intro m k hk
    rw [← State.writeRun_slotAt s _ _ x m hk]
    simp only [State.slotAt, ← hmaps]; rfl
  · simpa [Context.live] using hl

theorem changeRun {f : Slot → Slot} (h : MapsAgree s) (hf : ∀ x, (f x).names = x.names)
    (ho : ∀ i, f (.held i) = .held i ∧ f (.lit i) = .lit i) (r : Run) (m : MapIx) : MapsAgree (s.changeRun f r m) := by
  intro n k i
  rw [State.changeRun_slotAt _ _ _ _ _ k.isLt, ← Slot.names_eq_some]
  have hn : (if m = n ∧ r.covers k = true then f (s.slotAt n k) else s.slotAt n k).names = (s.slotAt n k).names := by
    split
    · exact hf _
    · rfl
  rw [hn]
  refine ⟨h.names_holds k.isLt, fun hh c hc => ?_⟩
  have hs := h.shows k.isLt hc hh
  split
  · rcases Slot.names_eq_some.1 (CtxState.names_of_shows hs) with e | e
    · rw [e, (ho i).1, ← e]; exact hs
    · rw [e, (ho i).2, ← e]; exact hs
  · exact hs

theorem rangeBody {f : Slot → Slot} (h : MapsAgree s) (hf : ∀ x, (f x).names = x.names)
    (ho : ∀ i, f (.held i) = .held i ∧ f (.lit i) = .lit i) (args : List Byte) : (rangeBody f args s).Leaves MapsAgree := by
  unfold Machine.rangeBody
  dsimp only
  split
  · trivial
  · split
    · trivial
    · split
      · trivial
      · exact h.changeRun hf ho _ _

theorem setPointBody (h : MapsAgree s) (args : List Byte) : (setPointBody args s).Leaves MapsAgree := by
  unfold Machine.setPointBody
  dsimp only
  split
  · trivial
  · split
    · trivial
    · split
      · trivial
      · show MapsAgree (if _ then _ else _)
        split
        · exact (h.modPoint _ _).attempt _
        · exact h.modPoint _ _

theorem forceDarkBody (h : MapsAgree s) (args : List Byte) : (forceDarkBody args s).Leaves MapsAgree := by
  unfold Machine.forceDarkBody
  dsimp only
  split
  · trivial
  · split
    · trivial
    · split
      · trivial
      · split
        · trivial
        · exact (h.modPoint _ _).grant _

theorem rereferenceBody (h : MapsAgree s) (args : List Byte) : (rereferenceBody args s).Leaves MapsAgree := by
  unfold Machine.rereferenceBody
  split
  · trivial
  · exact h.mapContexts (Context.refresh_follows _)

theorem adoptBody (h : MapsAgree s) (ht : TableConsistent s) (args : List Byte) : (adoptBody args s).Leaves MapsAgree := by
  unfold Machine.adoptBody
  dsimp only
  split
  · trivial
  · split
    · trivial
    · split
      · trivial
      · split
        · trivial
        · split
          · trivial
          next i hi =>
            split
            · trivial
            · split
              · trivial
              next hfree =>
                split
                · trivial
                · exact h.create ht hi hfree rfl (State.writeRun_contexts _ _ _ _) nofun (by simp [CtxState.shows])

theorem beginBody (h : MapsAgree s) (ht : TableConsistent s) (st : Station) (args : List Byte) :
    (beginBody st args s).Leaves MapsAgree := by
  unfold Machine.beginBody
  dsimp only
  split
  · trivial
  · split
    · trivial
    · split
      · trivial
      · split
        · split
          · trivial
          · split
            · trivial
            next i hi =>
              split
              · trivial
              · split
                · trivial
                next hclaim =>
                  refine MapsAgree.offer ?_ _ _ _
                  exact h.create ht hi (beginClaim_free hclaim) rfl (State.writeRun_contexts _ _ _ _) nofun
                    (by simp [CtxState.shows])
        · trivial

theorem startRampBody (h : MapsAgree s) (st : Station) (args : List Byte) : (startRampBody st args s).Leaves MapsAgree := by
  unfold Machine.startRampBody
  split
  · trivial
  next i c hf =>
    obtain ⟨hc, -, -⟩ := s.findLive_some hf
    split
    · trivial
    · split
      next hr => exact h.joinLine hc rfl rfl (by rw [hr.2.1]; rfl)
      · trivial

theorem teardownBody (h : MapsAgree s) (st : Station) (args : List Byte) : (teardownBody st args s).Leaves MapsAgree := by
  unfold Machine.teardownBody
  split
  · trivial
  next i c hf =>
    obtain ⟨hc, hl, -⟩ := s.findLive_some hf
    split
    · trivial
    · split
      · trivial
      · exact h.retireAtTail hc hl _ _

theorem abortBody (h : MapsAgree s) (st : Station) (args : List Byte) : (abortBody st args s).Leaves MapsAgree := by
  unfold Machine.abortBody
  split
  · trivial
  next i c hf =>
    obtain ⟨hc, hl, -⟩ := s.findLive_some hf
    split
    · trivial
    · split
      · exact h
      · exact h.localAbort hc hl _

/-- A record that is not live becomes FREE (R31): no entry shows it. -/
theorem release {i : CtxIx} {c : Context} (h : MapsAgree s) (hc : s.context i = some c) (hl : c.live = false) :
    MapsAgree ((s.forget i).setContext i none) := by
  intro m k j
  have hctx : ((s.forget i).setContext i none).context j = if i = j then none else s.context j :=
    (s.forget i).setContext_context i j none
  by_cases e : i = j
  · subst e
    rw [if_pos rfl] at hctx
    have hh : s.holds i m k = false := by simp [State.holds, hc, hl]
    have hn : ((s.forget i).setContext i none).holds i m k = false := by simp [State.holds, hctx]
    rw [hn]
    exact ⟨fun hx => absurd ((h m k i).1 hx) (by simp [hh]), nofun⟩
  · rw [if_neg e] at hctx
    rw [State.holds_congr hctx, hctx]
    exact h m k j

theorem releaseBody (h : MapsAgree s) (st : Station) (args : List Byte) : (releaseBody st args s).Leaves MapsAgree := by
  unfold Machine.releaseBody
  split
  · trivial
  · split
    · trivial
    next c hc =>
      split
      · trivial
      next hst =>
        split
        · trivial
        · exact h.release hc (by simpa [Context.live] using hst)

end MapsAgree
end Sys2Proof.Machine
end

section
/-! ### The maps in agreement: frames, and the step -/

namespace Sys2Proof.Machine

/-- What an outcome's state meets is met by the next state. -/
theorem next_keeps {P : State → Prop} {u t : State} (h : P u)
    (hx : (Host.Outcome.next u : Host.Outcome State Fault Refusal) = .next t) : P t := by
  cases hx; exact h

namespace MapsAgree

variable {s t : State}

theorem probeTransit {i : CtxIx} (h : MapsAgree s) (ht : TableConsistent s) (hi : s.chooseRecord = some i) (d e : Degree)
    (id : Word32) (q : Probe) : MapsAgree (s.probeTransit d e id q i) := by
  unfold State.probeTransit
  split
  · exact h.offer _ _ _
  next hfree =>
    refine MapsAgree.offer ?_ _ _ _
    exact h.create ht hi hfree rfl (State.writeRun_contexts _ _ _ _) nofun (by simp [CtxState.shows])

theorem probeTail {i : CtxIx} (h : MapsAgree s) (ht : TableConsistent s) (hi : s.chooseRecord = some i) (d : Degree)
    (drop : Fin 16) (id : Word32) (q : Probe) : MapsAgree (s.probeTail d drop id q i) := by
  unfold State.probeTail
  split
  · exact h.offer _ _ _
  next hfree =>
    refine MapsAgree.offer ?_ _ _ _
    exact h.create ht hi hfree rfl (State.writeRun_contexts _ _ _ _) nofun (by simp [CtxState.shows])

theorem takeProbe (h : MapsAgree s) (ht : TableConsistent s) (d : Degree) (id : Word32) (q : Probe) :
    MapsAgree (s.takeProbe d id q) := by
  unfold State.takeProbe
  dsimp only
  split
  · exact h.offer _ _ _
  · split
    · exact h.offer _ _ _
    · split
      · exact h.offer _ _ _
      next i hi =>
        split
        · split
          · split
            · exact h.offer _ _ _
            · exact h.probeTransit ht hi _ _ _ _
          · exact h
        · split
          · exact h.probeTail ht hi _ _ _ _
          · exact h

theorem takeClear {i : CtxIx} {c : Context} (h : MapsAgree s) (hc : s.context i = some c) (hst : c.state = .probing) :
    MapsAgree (s.takeClear i c) := by
  have hent : MapsAgree (s.enter i c .reserved) := h.enterEarly hc rfl rfl (by rw [hst]; rfl) nofun nofun
  unfold State.takeClear
  dsimp only
  split
  · split
    · exact hent.joinLine (s.enter_context i i c .reserved |>.trans (if_pos rfl)) rfl rfl rfl
    · exact hent
  · exact hent.offer _ _ _
  · exact hent

theorem takeLit {i : CtxIx} {c : Context} (h : MapsAgree s) (hc : s.context i = some c) (hl : c.live = true) :
    MapsAgree (s.takeLit i c) := (h.enterService hc rfl rfl hl).offerTo _ _ _

theorem takeAbort {i : CtxIx} {c : Context} (h : MapsAgree s) (hc : s.context i = some c) (hl : c.live = true)
    (d : Degree) (o : Cause) (n : Word16) : MapsAgree (s.takeAbort d i c o n) := by
  unfold State.takeAbort
  split
  · exact h
  · exact (h.offerTo _ _ _).abortEffect (by simpa [State.context] using hc) hl _

theorem takeTeardown {i : CtxIx} {c : Context} (h : MapsAgree s) (hc : s.context i = some c) (hl : c.live = true)
    (d : Degree) : MapsAgree (s.takeTeardown d i c) := (h.retireAtTail hc hl _ _).offerTo _ _ _

/-- A taking keeps the agreement where its act does. -/
theorem takeFrame (h : MapsAgree s) {d : Degree} {ofRow : Byte → Bool} {act : Frame → State → State}
    (hact : ∀ f, MapsAgree (act f (s.removeHead d))) : MapsAgree (s.takeFrame d ofRow act) :=
  State.takeFrame_keeps h (h.congr rfl rfl) hact

/-- A frame for a context keeps the agreement where its effect on a live context does. -/
theorem forContext (h : MapsAgree s) {d : Degree} {f : Frame} {row : Context → Bool} {effect : CtxIx → Context → State → State}
    (taken : ∀ i c, s.context i = some c → c.live = true → row c = true → MapsAgree (effect i c s)) :
    MapsAgree (s.forContext d f row effect) := State.forContext_keeps (h.congr rfl rfl) taken

/-- A command keeps the agreement where its body does. -/
theorem command (h : MapsAgree s) {ofRow : Command → Bool} {layout : List Byte → Bool}
    {body : Station → List Byte → State → Verdict}
    (hb : ∀ st args, (body st args (s.taken st)).Leaves MapsAgree)
    (hx : runCommand ofRow layout body s = .next t) : MapsAgree t :=
  runCommand_keeps h (fun _ => h.congr rfl rfl) (fun _ _ _ hu => hu.congr rfl rfl) hb hx

/-- The taking of an intake changes neither a map nor a record (R152). -/
theorem taken (h : MapsAgree s) (st : Station) : MapsAgree (s.taken st) := h.congr rfl rfl

theorem removeHead (h : MapsAgree s) (d : Degree) : MapsAgree (s.removeHead d) := h.congr rfl rfl

theorem carrierLoss (h : MapsAgree s) (d : Degree) : MapsAgree (s.carrierLoss d) := by
  unfold State.carrierLoss
  split <;> exact h.congr rfl rfl

theorem receive (h : MapsAgree s) (d : Degree) (f : RxFrame) : MapsAgree (s.receive d f) := by
  unfold State.receive
  split
  · split <;> exact h.congr rfl rfl
  · exact h

theorem depart (h : MapsAgree s) (d : Degree) : MapsAgree (s.depart d) := by
  unfold State.depart
  split
  · split
    · exact h.congr rfl rfl
    · exact h
  · exact h

theorem takeSweep (h : MapsAgree s) (p : PointIx) (bytes : List Byte) : MapsAgree (s.takeSweep p bytes) := by
  unfold State.takeSweep
  split
  · exact h.congr rfl rfl
  · split
    · exact h.congr rfl rfl
    · exact h.acceptSweep _ _ _

/-- The outcome that removes an entry keeps the agreement: the entry and the waiting settings are no part of it (R144, R146). -/
theorem deliverRemoved (h : MapsAgree s) (p : PointIx) (l : List Setting) (o : SettingOutcome) :
    MapsAgree ({ s.removeEntry p with toSend := l }.deliver p o) := by
  have hr : MapsAgree { s.removeEntry p with toSend := l } := h.congr rfl rfl
  exact hr.deliver p o

/-! ### The events and commands of the table -/

theorem readContextBody (h : MapsAgree s) (st : Station) (args : List Byte) :
    (readContextBody st args s).Leaves MapsAgree := by
  unfold Machine.readContextBody; dsimp only
  split
  · split
    · exact h
    · trivial
  · split
    · split <;> exact h
    · trivial

theorem nextChangedBody (h : MapsAgree s) (st : Station) (args : List Byte) :
    (nextChangedBody st args s).Leaves MapsAgree := by
  unfold Machine.nextChangedBody
  split
  · exact h.congr rfl rfl
  · exact h

theorem readMapBody (h : MapsAgree s) (st : Station) (args : List Byte) : (readMapBody st args s).Leaves MapsAgree := by
  unfold Machine.readMapBody; dsimp only
  split
  · split
    · exact h
    · trivial
  · trivial

theorem readPointBody (h : MapsAgree s) (st : Station) (args : List Byte) :
    (readPointBody st args s).Leaves MapsAgree := by
  unfold Machine.readPointBody
  split
  · exact h
  · trivial

theorem readLinkBody (h : MapsAgree s) (st : Station) (args : List Byte) :
    (readLinkBody st args s).Leaves MapsAgree := by
  unfold Machine.readLinkBody
  split
  · split
    · exact h
    · split
      · exact h.modLink _ _
      · trivial
  · trivial

theorem setAttentionMaskBody (h : MapsAgree s) (st : Station) (args : List Byte) :
    (setAttentionMaskBody st args s).Leaves MapsAgree := by
  unfold Machine.setAttentionMaskBody
  split
  · exact h.congr rfl rfl
  · trivial

theorem configureNodeBody (h : MapsAgree s) (args : List Byte) : (configureNodeBody args s).Leaves MapsAgree := by
  unfold Machine.configureNodeBody
  split
  · trivial
  · split
    · trivial
    · exact h.congr rfl rfl

theorem openNodeBody (h : MapsAgree s) (args : List Byte) : (openNodeBody args s).Leaves MapsAgree := by
  unfold Machine.openNodeBody
  split
  · trivial
  · exact h.congr rfl rfl

theorem setLockoutBody (h : MapsAgree s) (args : List Byte) : (setLockoutBody args s).Leaves MapsAgree := by
  unfold Machine.setLockoutBody; dsimp only
  split
  · trivial
  · exact h.congr rfl rfl

theorem linkEnableBody (h : MapsAgree s) (args : List Byte) : (linkEnableBody args s).Leaves MapsAgree := by
  unfold Machine.linkEnableBody
  split
  · trivial
  · split
    · trivial
    · split
      · trivial
      · exact h.modLink _ _

theorem linkDisableBody (h : MapsAgree s) (args : List Byte) : (linkDisableBody args s).Leaves MapsAgree := by
  unfold Machine.linkDisableBody
  split
  · trivial
  · split
    · trivial
    · exact h.modLink _ _

theorem execProbe (h : MapsAgree s) (ht : TableConsistent s) (d : Degree) (hx : execProbe d s = .next t) : MapsAgree t := by
  refine next_keeps (h.takeFrame fun f => ?_) hx
  split
  · exact (h.removeHead d).takeProbe ht _ _ _
  · exact h.removeHead d

theorem execClear (h : MapsAgree s) (d : Degree) (hx : execClear d s = .next t) : MapsAgree t := by
  refine next_keeps (h.takeFrame fun f => ?_) hx
  split
  · refine (h.removeHead d).forContext fun i c hc _ hr => ?_
    simp only [Context.meetsClear, Bool.and_eq_true, beq_iff_eq] at hr
    obtain ⟨⟨-, hst⟩, -⟩ := hr
    exact (h.removeHead d).takeClear hc hst
  · exact h.removeHead d

theorem execRefuse (h : MapsAgree s) (d : Degree) (hx : execRefuse d s = .next t) : MapsAgree t := by
  refine next_keeps (h.takeFrame fun f => ?_) hx
  split
  · exact (h.removeHead d).forContext fun i c hc hl _ => ((h.removeHead d).endNeverLit hc hl _).offerTo _ _ _
  · exact h.removeHead d

theorem execLight (h : MapsAgree s) (d : Degree) (hx : execLight d s = .next t) : MapsAgree t := by
  refine next_keeps (h.takeFrame fun f => ?_) hx
  refine (h.removeHead d).forContext fun i c hc _ hr => ?_
  simp only [Bool.and_eq_true, beq_iff_eq] at hr
  obtain ⟨-, hst⟩ := hr
  exact (h.removeHead d).joinLine hc rfl rfl (by rw [hst]; rfl)

theorem execAbort (h : MapsAgree s) (d : Degree) (hx : execAbort d s = .next t) : MapsAgree t := by
  refine next_keeps (h.takeFrame fun f => ?_) hx
  split
  · exact (h.removeHead d).forContext fun i c hc hl _ => (h.removeHead d).takeAbort hc hl _ _ _
  · exact h.removeHead d

theorem execLit (h : MapsAgree s) (d : Degree) (hx : execLit d s = .next t) : MapsAgree t := by
  refine next_keeps (h.takeFrame fun f => ?_) hx
  exact (h.removeHead d).forContext fun i c hc hl _ => (h.removeHead d).takeLit hc hl

theorem execTeardown (h : MapsAgree s) (d : Degree) (hx : execTeardown d s = .next t) : MapsAgree t := by
  refine next_keeps (h.takeFrame fun f => ?_) hx
  exact (h.removeHead d).forContext fun i c hc hl _ => (h.removeHead d).takeTeardown hc hl d

theorem execReset (strap : BitVec 3) (carriers : BitVec 8) (hx : execReset strap carriers s = .next t) : MapsAgree t := by
  exact next_keeps (afterReset_resetWith strap carriers s.outputs s.pending).mapsAgree hx

theorem execReceiveError (h : MapsAgree s) (d : Degree) (hx : execReceiveError d s = .next t) : MapsAgree t := by
  refine next_keeps ?_ hx
  split
  · split
    · exact (h.removeHead d).modLink _ _
    · exact h
  · exact h

theorem execSweepRecord (h : MapsAgree s) (bytes : List Byte) (hx : execSweepRecord bytes s = .next t) : MapsAgree t := by
  refine next_keeps ?_ hx
  split
  · exact h.takeSweep _ _
  · exact h.congr rfl rfl

theorem execAcknowledgement (h : MapsAgree s) (bytes : List Byte) (hx : execAcknowledgement bytes s = .next t) :
    MapsAgree t := by
  refine next_keeps ?_ hx
  split
  · split
    · exact h.deliverRemoved _ _ _
    · exact h.congr rfl rfl
  · exact h.congr rfl rfl

theorem execActuatorTimerExpiry (h : MapsAgree s) (p : PointIx) (hx : execActuatorTimerExpiry p s = .next t) :
    MapsAgree t := by
  refine next_keeps ?_ hx
  split
  · split
    · exact h.deliverRemoved _ _ _
    · exact h
  · exact h

theorem execWatchTimerExpiry (h : MapsAgree s) (i : CtxIx) (hx : execWatchTimerExpiry i s = .next t) : MapsAgree t := by
  refine next_keeps ?_ hx
  split
  next c hc =>
    split
    next w _ hw =>
      refine h.localAbort hc ?_ _
      rw [Context.live]
      cases hst : c.state <;> simp_all [CtxState.timed]
    · exact h
  · exact h

/-- What a command or an event does keeps the agreement. -/
theorem exec (h : MapsAgree s) (ht : TableConsistent s) (i : Instr) (hx : exec i s = .next t) : MapsAgree t := by
  have hk := h.taken
  cases i with
  | readNode => exact h.command (body := readNodeBody) (fun st _ => (hk st).congr rfl rfl) hx
  | readContext => exact h.command (fun st args => (hk st).readContextBody st args) hx
  | nextChanged => exact h.command (fun st args => (hk st).nextChangedBody st args) hx
  | readMap => exact h.command (fun st args => (hk st).readMapBody st args) hx
  | readPoint => exact h.command (fun st args => (hk st).readPointBody st args) hx
  | readLink => exact h.command (fun st args => (hk st).readLinkBody st args) hx
  | setAttentionMask => exact h.command (fun st args => (hk st).setAttentionMaskBody st args) hx
  | clearStation => exact h.command (body := clearStationBody) (fun st _ => (hk st).congr rfl rfl) hx
  | configureNode => exact h.command (fun st args => stationZero_leaves ((hk st).configureNodeBody args)) hx
  | openNode => exact h.command (fun st args => stationZero_leaves ((hk st).openNodeBody args)) hx
  | closeNode => exact h.command (fun st _ => stationZero_leaves (body := closeNodeBody) ((hk st).congr rfl rfl)) hx
  | setTiming => exact h.command (fun st _ => stationZero_leaves (body := setTimingBody) ((hk st).congr rfl rfl)) hx
  | setPoint => exact h.command (fun st _ => stationZero_leaves ((hk st).setPointBody _)) hx
  | setLockout => exact h.command (fun st args => stationZero_leaves ((hk st).setLockoutBody args)) hx
  | linkControlEnable => exact h.command (fun st args => stationZero_leaves ((hk st).linkEnableBody args)) hx
  | linkControlDisable => exact h.command (fun st args => stationZero_leaves ((hk st).linkDisableBody args)) hx
  | barSlots =>
    exact h.command (fun st _ => stationZero_leaves ((hk st).rangeBody Slot.names_bar (fun _ => ⟨rfl, rfl⟩) _)) hx
  | unbarSlots =>
    exact h.command (fun st _ => stationZero_leaves ((hk st).rangeBody Slot.names_unbar (fun _ => ⟨rfl, rfl⟩) _)) hx
  | forceDark => exact h.command (fun st _ => stationZero_leaves ((hk st).forceDarkBody _)) hx
  | rereferencePoint => exact h.command (fun st _ => stationZero_leaves ((hk st).rereferenceBody _)) hx
  | adoptLightpath => exact h.command (fun st _ => stationZero_leaves ((hk st).adoptBody ht _)) hx
  | beginLightpath => exact h.command (fun st _ => (hk st).beginBody ht st _) hx
  | startRamp => exact h.command (fun st _ => (hk st).startRampBody st _) hx
  | teardownLightpath => exact h.command (fun st _ => (hk st).teardownBody st _) hx
  | abortLightpath => exact h.command (fun st _ => (hk st).abortBody st _) hx
  | releaseContext => exact h.command (fun st _ => (hk st).releaseBody st _) hx
  | unknownCommand => exact h.command (fun _ _ => Verdict.leaves_refused _ _) hx
  | write start data endMark =>
    refine next_keeps ?_ hx
    rw [State.writeBytes_eq, State.openTransaction_eq]; exact h.congr rfl rfl
  | read start taken =>
    refine next_keeps ?_ hx
    rw [State.readBytes_eq, State.openTransaction_eq]; exact h.congr rfl rfl
  | poll start => refine next_keeps ?_ hx; rw [State.startTransaction_eq]; exact h.congr rfl rfl
  | busClear => exact next_keeps (u := s.busClear) (h.congr rfl rfl) hx
  | reset strap carriers => exact execReset strap carriers hx
  | carrierArrival link => exact next_keeps (h.modLink _ _) hx
  | carrierLoss link => exact next_keeps (h.carrierLoss link) hx
  | frameCompletion link bytes => exact next_keeps (h.receive link _) hx
  | frameDeparture link => exact next_keeps (h.depart link) hx
  | receiveError link => exact h.execReceiveError link hx
  | probe link => exact h.execProbe ht link hx
  | clear link => exact h.execClear link hx
  | refuse link => exact h.execRefuse link hx
  | light link => exact h.execLight link hx
  | lit link => exact h.execLit link hx
  | abort link => exact h.execAbort link hx
  | teardown link => exact h.execTeardown link hx
  | sweepRecord bytes => exact h.execSweepRecord bytes hx
  | acknowledgement bytes => exact h.execAcknowledgement bytes hx
  | actuatorTimerExpiry point => exact h.execActuatorTimerExpiry point hx
  | settingTransmission => refine next_keeps ?_ hx; exact h.congr rfl rfl
  | watchTimerExpiry context => exact h.execWatchTimerExpiry context hx
  | sweepTimerExpiry point => exact next_keeps (h.sweepExpiry point) hx
  | unknownFrameKind link => exact next_keeps (h.takeFrame fun _ => (h.removeHead link).modLink link _) hx
  | otherTargetAddressByte address =>
    refine next_keeps ?_ hx
    rw [State.endTransaction_eq]; exact h.congr rfl rfl

/-- A millisecond changes no field that an entry shows (R34). -/
theorem tick (h : MapsAgree s) : MapsAgree (tick s) := by
  have hl : MapsAgree s.later :=
    (h.mapContexts fun c => .of_eq (d := c.countDown) rfl rfl rfl).congr rfl rfl
  exact hl.congr rfl rfl

end MapsAgree
end Sys2Proof.Machine

open Sys2Proof Sys2Proof.Machine

/-- Settles O57: the maps change only with a claim, an entry into service, an ending, and what no entry shows. -/
theorem stepKeepsMapsInAgreement : Obligations.StepKeepsMapsInAgreement := by
  intro s t ht h hx
  unfold step at hx
  split at hx
  · cases hx; exact h.tick
  next c rest _ =>
    have hq : MapsAgree { s with pending := rest } := h.congr rfl rfl
    have htq : TableConsistent { s with pending := rest } := ht
    exact hq.exec htq c hx
end

section
/-! ## READ MAP (R17, R180) -/

namespace Sys2Proof.Machine

/-- Run-length entries spell the slots in order (R17). -/
theorem runLengths_spell (l : List Slot) : (runLengths l).flatMap (fun e => List.replicate e.2 e.1) = l := by
  induction l with
  | nil => rfl
  | cons x xs ih =>
    unfold runLengths
    split
    next y n rest hr =>
      rw [hr] at ih
      split
      next e => subst e; rw [← ih]; rfl
      · rw [← ih]; rfl
    next hr => rw [hr] at ih; rw [← ih]; rfl

/-- No run-length entry is empty. -/
theorem runLengths_pos (l : List Slot) : ∀ e ∈ runLengths l, 1 ≤ e.2 := by
  induction l with
  | nil => simp [runLengths]
  | cons x xs ih =>
    unfold runLengths
    split
    next y n rest hr =>
      rw [hr] at ih
      split
      · intro e he
        rcases List.mem_cons.1 he with rfl | he
        · exact Nat.le_add_left 1 n
        · exact ih e (List.mem_cons_of_mem _ he)
      · intro e he
        rcases List.mem_cons.1 he with rfl | he
        · exact le_refl 1
        · exact ih e he
    · simp

/-- Neighbouring run-length entries differ. -/
theorem runLengths_chain (l : List Slot) : ((runLengths l).map Prod.fst).IsChain (· ≠ ·) := by
  induction l with
  | nil => simp [runLengths]
  | cons x xs ih =>
    unfold runLengths
    split
    next y n rest hr =>
      rw [hr] at ih
      split
      next e => simpa [e] using ih
      next e => exact List.IsChain.cons_cons e ih
    · simp

/-- The slots of a range, lowest first. -/
theorem State.range_slots (s : State) (m : MapIx) {first count : Nat} (h : first + count ≤ 384) :
    ((s.maps[m]).toList.drop first).take count = (List.range' first count).map (s.slotAt m) := by
  refine List.ext_getElem (by simp; omega) fun j h1 h2 => ?_
  have hj : first + j < 384 := by simp at h2; omega
  simp only [List.getElem_take, List.getElem_drop, List.getElem_map, List.getElem_range', Nat.one_mul]
  rw [s.slotAt_of_lt m hj, Vector.getElem_toList]

theorem mapData_eq (es : List (Slot × Nat)) : mapData es =
    [byte (min 64 es.length), if 64 < es.length then 1 else 0] ++ (es.take 64).flatMap mapEntryBytes := by
  simp [mapData, boolByte]

/-- The three bytes of an entry of at most 384 slots, for each slot state (R180). -/
theorem mapEntryBytes_cases {n : Nat} (h : n ≤ 384) (i : CtxIx) :
    mapEntryBytes (.free, n) = [byte (n / 256), byte n, 0xFF] ∧
    mapEntryBytes (.held i, n) = [byte (64 + n / 256), byte n, indexByte i] ∧
    mapEntryBytes (.lit i, n) = [byte (128 + n / 256), byte n, indexByte i] ∧
    mapEntryBytes (.barred, n) = [byte (192 + n / 256), byte n, 0xFF] := by
  have hq : n / 256 = 0 ∨ n / 256 = 1 := by omega
  rcases hq with hq | hq <;> simp [mapEntryBytes, Slot.codes, byte, hq]

/-- A map or a range that does not exist (R14, R173). -/
theorem range_refused {m : Byte} {first count : Word16}
    (h : 15 < m.toNat ∨ 383 < first.toNat ∨ count = 0 ∨ 384 < first.toNat + count.toNat) :
    mapArg m = none ∨ (⟨first.toNat, count.toNat⟩ : Run).isRange = false := by
  by_cases hm : 15 < m.toNat
  · exact .inl (mapArg_eq_none hm)
  · right
    rw [← Bool.not_eq_true, Run.isRange_iff]
    rintro ⟨h1, h2, h3⟩
    rcases h with h | h | h | h
    · exact hm h
    · exact absurd h2 (by simpa using h)
    · rw [h] at h1; cases h1
    · exact absurd h3 (by simpa using h)

theorem readMapBody_refused {m : Byte} {first count : Word16}
    (h : 15 < m.toNat ∨ 383 < first.toNat ∨ count = 0 ∨ 384 < first.toNat + count.toNat) (st : Station) (s : State) :
    readMapBody st (m :: bytes16 first ++ bytes16 count) s = .refused .badArgument := by
  unfold readMapBody
  rw [rangeAt_range]
  rcases range_refused h with hm | hr
  · rw [show mapArg (byteAt (m :: bytes16 first ++ bytes16 count) 0) = none from hm]
  · dsimp only
    rw [hr]
    split <;> rfl

theorem readMapBody_accepted {m : MapIx} {first count : Nat} (h1 : first ≤ 383) (h2 : 1 ≤ count) (h3 : first + count ≤ 384)
    (st : Station) (s : State) : readMapBody st (indexByte m :: nat16 first ++ nat16 count) s =
      .accepted s (mapData (s.mapEntries m ⟨first, count⟩)) := by
  unfold readMapBody
  rw [rangeAt_nat _ (by omega) (by omega),
    show mapArg (byteAt (indexByte m :: nat16 first ++ nat16 count) 0) = some m from mapArg_indexByte m]
  exact if_pos (Run.isRange_iff.2 ⟨h2, h1, h3⟩)

end Sys2Proof.Machine

open Sys2Proof Sys2Proof.Machine

/-- Settles O15: the entries are the run lengths of the range's slots. -/
theorem readMapReturnsRunLengths : Obligations.ReadMapReturnsRunLengths := by
  refine ⟨fun n i h => mapEntryBytes_cases h i, fun s st m first count h hbad => ?_,
    fun s st m first count h1 h2 h3 h => ?_⟩
  · exact runCommand_refused h rfl rfl rfl (readMapBody_refused hbad st _)
  · have hmaps : (s.taken st).mapEntries m ⟨first, count⟩ = s.mapEntries m ⟨first, count⟩ := rfl
    refine ⟨s.mapEntries m ⟨first, count⟩, ?_, runLengths_pos _, runLengths_chain _, ?_⟩
    · rw [State.mapEntries, runLengths_spell, s.range_slots m h3]
    · rw [← mapData_eq, ← hmaps]
      exact runCommand_accepted h rfl rfl rfl (readMapBody_accepted h1 h2 h3 st _)
end

section
/-! ## BAR SLOTS and UNBAR SLOTS (R15, R16) -/

namespace Sys2Proof.Machine

variable {s : State} {f : Slot → Slot} {code : Byte}

theorem rangeBody_badArgument {m : Byte} {first count : Word16}
    (h : 15 < m.toNat ∨ 383 < first.toNat ∨ count = 0 ∨ 384 < first.toNat + count.toNat) :
    rangeBody f (m :: bytes16 first ++ bytes16 count) s = .refused .badArgument := by
  unfold rangeBody
  rw [rangeAt_range]
  rcases range_refused h with hm | hr
  · rw [show mapArg (byteAt (m :: bytes16 first ++ bytes16 count) 0) = none from hm]
  · dsimp only
    rw [hr]
    split <;> rfl

/-- The body past its argument checks (R15, R16): the occupancy test decides. -/
theorem rangeBody_eq {m : MapIx} {first count : Nat} (h1 : first ≤ 383) (h2 : 1 ≤ count) (h3 : first + count ≤ 384) :
    rangeBody f (indexByte m :: nat16 first ++ nat16 count) s =
      match s.occupancy m ⟨first, count⟩ with
      | some k => .refused (.slotBusy k m)
      | none => .accepted (s.changeRun f ⟨first, count⟩ m) [] := by
  unfold rangeBody
  rw [rangeAt_nat _ (by omega) (by omega),
    show mapArg (byteAt (indexByte m :: nat16 first ++ nat16 count) 0) = some m from mapArg_indexByte m]
  have hr : (⟨first, count⟩ : Run).isRange = true := Run.isRange_iff.2 ⟨h2, h1, h3⟩
  exact if_neg (by simp [hr])

/-- An execution of either command over a range that exists, by what its range holds. -/
theorem runCommand_rangeBody {m : MapIx} {first count : Nat} {x : Slot} (h1 : first ≤ 383) (h2 : 1 ≤ count)
    (h3 : first + count ≤ 384) (h : Executes s 0 code (indexByte m :: nat16 first ++ nat16 count))
    (hc : commandCodes.contains code = true) (hfree : f .free = x) (hbarred : f .barred = x) :
    ((∀ k, first ≤ k → k < first + count → s.slotAt m k = .free ∨ s.slotAt m k = .barred) →
      ∃ t, runCommand (hasCode code) (argCount 5) (stationZero (rangeBody f)) s = .next t ∧
        (∀ (n : MapIx) (k : Nat), k < 384 → t.slotAt n k =
          if n = m ∧ first ≤ k ∧ k < first + count then x else s.slotAt n k) ∧
        { t with maps := s.maps } = (s.taken 0).accepting 0 code []) ∧
    (∀ k, first ≤ k → k < first + count → (∃ i, s.slotAt m k = .held i ∨ s.slotAt m k = .lit i) →
      (∀ j, first ≤ j → j < k → s.slotAt m j = .free ∨ s.slotAt m j = .barred) →
      runCommand (hasCode code) (argCount 5) (stationZero (rangeBody f)) s = .next ((s.taken 0).refusing 0
        code 0x08 (nat16 k ++ [indexByte m]))) := by
  have hrow : hasCode code ⟨code, indexByte m :: nat16 first ++ nat16 count, false, false⟩ = true := by simp [hasCode]
  have hbody := rangeBody_eq (s := s.taken 0) (f := f) (m := m) h1 h2 h3
  constructor
  · intro hin
    have hocc : (s.taken 0).occupancy m ⟨first, count⟩ = none :=
      ((s.taken 0).occupancy_eq_none m _).2 fun k hk => by
        obtain ⟨a, b⟩ := Run.covers_iff.1 hk
        exact Slot.not_occupied_iff.2 (hin k a b)
    rw [hocc] at hbody
    refine ⟨_, runCommand_accepted h hrow hc rfl ((stationZero_zero _ _ _).trans hbody), fun n k hk => ?_, rfl⟩
    refine ((s.taken 0).changeRun_slotAt f ⟨first, count⟩ m n hk).trans ?_
    simp only [Run.covers_iff, eq_comm (a := m)]
    split
    next hin' =>
      obtain ⟨rfl, a, b⟩ := hin'
      rcases hin k a b with e | e
      · exact (congrArg f e).trans hfree
      · exact (congrArg f e).trans hbarred
    · rfl
  · intro k a b hbusy before
    have hocc : (s.taken 0).occupancy m ⟨first, count⟩ = some k :=
      State.occupancy_eq_some (Run.covers_iff.2 ⟨a, b⟩) (Slot.occupied_iff.2 hbusy) fun j hj hjk =>
        Slot.not_occupied_iff.2 (before j hj hjk)
    rw [hocc] at hbody
    exact runCommand_refused h hrow hc rfl ((stationZero_zero _ _ _).trans hbody)

end Sys2Proof.Machine

open Sys2Proof Sys2Proof.Machine

/-- Settles O22: both commands run one body, with the change of an entry as its parameter. -/
theorem barAndUnbarChangeTheRange : Obligations.BarAndUnbarChangeTheRange := by
  refine ⟨fun s m first count bar h hbad => ?_, fun s m first count bar h1 h2 h3 h => ?_⟩
  · cases bar
    · exact runCommand_refused h rfl rfl rfl ((stationZero_zero _ _ _).trans (rangeBody_badArgument hbad))
    · exact runCommand_refused h rfl rfl rfl ((stationZero_zero _ _ _).trans (rangeBody_badArgument hbad))
  · cases bar
    · exact runCommand_rangeBody h1 h2 h3 h rfl rfl rfl
    · exact runCommand_rangeBody h1 h2 h3 h rfl rfl rfl
end

section
/-! ## FORCE DARK (R91, R92) -/

namespace Sys2Proof.Machine

variable {s : State}

theorem mapOfPoint_val (p : PointIx) :
    (p.val < 8 → (mapOfPoint p).val = p.val + 8) ∧ (8 ≤ p.val → (mapOfPoint p).val = p.val - 8) := by
  unfold mapOfPoint
  constructor
  · intro h
    rw [if_pos h]
    exact Nat.mod_eq_of_lt (by omega)
  · intro h; rw [if_neg (by omega)]

/-- The arguments of a command about a run whose width takes one byte (R180). -/
theorem runAt_run (n width : Byte) (first : Word16) :
    runAt (n :: bytes16 first ++ [width]) 1 = ⟨first.toNat, width.toNat⟩ := by
  simp [runAt, word16At, byteAt, bytes16, word16_bytes16]

/-- The same where the bytes are those of a slot run. -/
theorem runAt_slotRun (n : Byte) {r : Run} (h : r.isSlotRun = true) : runAt (n :: nat16 r.first ++ [byte r.width]) 1 = r := by
  obtain ⟨h1, h2, h3, h4⟩ := Run.isSlotRun_iff.1 h
  rw [nat16, runAt_run, ofNat16_toNat (by omega), byte_toNat (by omega)]

theorem forceDarkBody_badArgument {n width : Byte} {first : Word16}
    (h : 15 < n.toNat ∨ (⟨first.toNat, width.toNat⟩ : Run).isSlotRun = false) :
    forceDarkBody (n :: bytes16 first ++ [width]) s = .refused .badArgument := by
  unfold forceDarkBody
  rw [runAt_run]
  rcases h with hn | hr
  · rw [show pointArg (byteAt (n :: bytes16 first ++ [width]) 0) = none from pointArg_eq_none hn]
  · dsimp only
    rw [hr]
    split <;> rfl

/-- The body past its argument checks (R91): the occupancy test, the request of the point, and the placing of a new one. -/
theorem forceDarkBody_eq {p : PointIx} {r : Run} (h : r.isSlotRun = true) :
    forceDarkBody (indexByte p :: nat16 r.first ++ [byte r.width]) s =
      match s.occupancy (mapOfPoint p) r with
      | some k => .refused (.slotBusy k (mapOfPoint p))
      | none =>
        if (s.point p).service.busy then .refused .busy
        else .accepted ((s.modPoint p fun q => { q with service := .pending r, lastService := none }).grant p) [] := by
  unfold forceDarkBody
  rw [runAt_slotRun _ h,
    show pointArg (byteAt (indexByte p :: nat16 r.first ++ [byte r.width]) 0) = some p from pointArg_indexByte p]
  exact if_neg (by simp [h])

theorem Service.busy_iff {x : Service} : x.busy = true ↔ x ≠ .none := by
  cases x <;> simp [Service.busy]

/-- With the lock held, a placed service request waits (R60). -/
theorem grant_of_holder {p : PointIx} (h : (s.point p).holder ≠ none) : s.grant p = s := by
  have hfree : (s.point p).lockFree = false := by
    simp [Point.lockFree, h]
  rw [State.grant, hfree]; rfl

/-- At a free lock, a PENDING service request becomes ACTIVE and sends its BLOCK (R60, R92). -/
theorem grant_of_pending {p : PointIx} {r : Run} (hh : (s.point p).holder = none) (hs : (s.point p).service = .pending r) :
    s.grant p = s.serviceTurn p r := by
  have hfree : (s.point p).lockFree = true := by simp [Point.lockFree, hh, hs]
  rw [State.grant, hfree, hs]; rfl

end Sys2Proof.Machine

open Sys2Proof Sys2Proof.Machine

/-- Settles O23: the checks in order, and the lock grant that follows the request. -/
theorem forceDarkPlacesAServiceRequest : Obligations.ForceDarkPlacesAServiceRequest := by
  refine ⟨mapOfPoint_val, fun r => ⟨Run.isSlotRun_iff, fun k => Run.covers_iff⟩, fun s n width first h hbad => ?_,
    fun s p r k hr h hk hbusy before => ?_, fun s p r hr h hfree => ?_⟩
  · exact runCommand_refused h rfl rfl rfl ((stationZero_zero _ _ _).trans (forceDarkBody_badArgument hbad))
  · have hocc : (s.taken 0).occupancy (mapOfPoint p) r = some k :=
      State.occupancy_eq_some hk (Slot.occupied_iff.2 hbusy) fun j hj hjk =>
        Slot.not_occupied_iff.2 (before j (Run.covers_iff.2 ⟨hj, hjk.trans (Run.covers_iff.1 hk).2⟩) hjk)
    have hbody := forceDarkBody_eq (s := s.taken 0) (p := p) hr
    rw [hocc] at hbody
    exact runCommand_refused h rfl rfl rfl ((stationZero_zero _ _ _).trans hbody)
  · have hocc : (s.taken 0).occupancy (mapOfPoint p) r = none :=
      ((s.taken 0).occupancy_eq_none _ _).2 fun k hk => Slot.not_occupied_iff.2 (hfree k hk)
    have hbody := forceDarkBody_eq (s := s.taken 0) (p := p) hr
    rw [hocc] at hbody
    have hpoint : (s.taken 0).point p = s.point p := rfl
    refine ⟨fun hs => ?_, fun hs hh => ?_, fun hs hh => ?_⟩
    · rw [hpoint, if_pos (Service.busy_iff.2 hs)] at hbody
      exact runCommand_refused h rfl rfl rfl ((stationZero_zero _ _ _).trans hbody)
    · rw [hpoint, hs, if_neg (by simp [Service.busy]), grant_of_holder (by rw [State.modPoint_point_self]; exact hh)] at hbody
      exact runCommand_accepted h rfl rfl rfl ((stationZero_zero _ _ _).trans hbody)
    · rw [hpoint, hs, if_neg (by simp [Service.busy]),
        grant_of_pending (r := r) (by rw [State.modPoint_point_self]; exact hh) (by simp),
        State.serviceTurn, State.modPoint_modPoint] at hbody
      exact runCommand_accepted h rfl rfl rfl ((stationZero_zero _ _ _).trans hbody)
end

section
/-! ## ADOPT LIGHTPATH (R171, R172) -/

namespace Sys2Proof.Machine

variable {s : State}

/-! ### The bytes of the sides (R19, R179) -/

theorem portArg_eq_some {b : Byte} {p : Fin 16} : portArg b = some p ↔ b = indexByte p := by
  refine ⟨fun h => ?_, fun h => by rw [h]; exact portArg_indexByte p⟩
  unfold portArg at h
  split at h
  · cases h; simp [indexByte, byte]
  · cases h

theorem degreeArg_eq_some {b : Byte} {d : Degree} : degreeArg b = some d ↔ b = indexByte d := by
  refine ⟨fun h => ?_, fun h => by rw [h]; exact degreeArg_indexByte d⟩
  unfold degreeArg at h
  split at h
  · cases h; simp [indexByte, byte]
  · cases h

/-- Three bytes name sides exactly where they are the role, the ingress and the egress of those sides (R171, step 2). -/
theorem adoptSides_eq_some {role ingress egress : Byte} {x : Sides} : adoptSides role ingress egress = some x ↔
    role = x.role.code ∧ ingress = x.ingressByte ∧ egress = x.egressByte := by
  refine ⟨fun h => ?_, fun ⟨hr, hi, he⟩ => ?_⟩
  · unfold adoptSides at h
    split at h
    next hr =>
      split at h
      next a e ha he => cases h; exact ⟨hr, portArg_eq_some.1 ha, degreeArg_eq_some.1 he⟩
      · cases h
    · split at h
      next hr =>
        split at h
        next i e hi he => cases h; exact ⟨hr, degreeArg_eq_some.1 hi, degreeArg_eq_some.1 he⟩
        · cases h
      · split at h
        next hr =>
          split at h
          next i d hi hd => cases h; exact ⟨hr, degreeArg_eq_some.1 hi, portArg_eq_some.1 hd⟩
          · cases h
        · cases h
  · cases x with
    | head a e => simp [adoptSides, hr, hi, he, Sides.role, Role.code, Sides.ingressByte, Sides.egressByte,
        portArg_indexByte, degreeArg_indexByte]
    | transit i e => simp [adoptSides, hr, hi, he, Sides.role, Role.code, Sides.ingressByte, Sides.egressByte,
        degreeArg_indexByte]
    | tail i d => simp [adoptSides, hr, hi, he, Sides.role, Role.code, Sides.ingressByte, Sides.egressByte,
        portArg_indexByte, degreeArg_indexByte]

/-! ### Runs that overlap (R93, R171) -/

theorem Run.overlaps_iff {a b : Run} : a.overlaps b = true ↔ ∃ k, a.covers k = true ∧ b.covers k = true := by
  simp only [Run.overlaps, decide_eq_true_eq, Run.covers_iff]
  exact ⟨fun h => ⟨max a.first b.first, by omega⟩, fun ⟨k, h⟩ => by omega⟩

theorem Service.overlaps_iff {x : Service} {run : Run} : x.overlaps run = true ↔
    ∃ r, (x = .pending r ∨ x = .active r) ∧ ∃ k, r.covers k = true ∧ run.covers k = true := by
  cases x <;> simp [Service.overlaps, Run.overlaps_iff]

/-! ### The body -/

/-- The arguments of an ADOPT LIGHTPATH as its layout lays them out (R180). -/
def adoptArguments (role : Byte) (id : Word32) (ingress egress : Byte) (first : Word16) (width attenuation window : Byte) :
    List Byte := [role] ++ bytes32 id ++ [ingress, egress] ++ bytes16 first ++ [width, attenuation, window]

/-- ADOPT LIGHTPATH once its arguments are found good: the ID, the record, the service request, the claim and the budget
(R9, R171, R172). -/
def adoptChecked (s : State) (sides : Sides) (id : Word32) (run : Run) (c : Context) : Verdict :=
  if (s.findLive id).isSome then .refused .duplicateId
  else match s.chooseRecord with
    | none => .refused .noContext
    | some i =>
      if (s.point sides.point).service.overlaps run then .refused .busy
      else match s.conflict sides.mapsUsed run with
        | some (k, m) => .refused (.slotBusy k m)
        | none =>
          if !fits (s.point sides.point) (chargeOf c.target c.window) then .refused .overBudget
          else .accepted (((s.writeRun sides.mapsUsed run (.lit i)).modPoint sides.point fun p =>
            { p with load := p.load + chargeOf c.target c.window }).create i c .inService)
              ([indexByte i] ++ nat32 (chargeOf c.target c.window))

section
variable {role ingress egress width attenuation window : Byte} {id : Word32} {first : Word16}

/-- What the body reads out of its arguments (R180). -/
theorem adoptArguments_read :
    byteAt (adoptArguments role id ingress egress first width attenuation window) 0 = role ∧
    word32At (adoptArguments role id ingress egress first width attenuation window) 1 = id ∧
    byteAt (adoptArguments role id ingress egress first width attenuation window) 5 = ingress ∧
    byteAt (adoptArguments role id ingress egress first width attenuation window) 6 = egress ∧
    runAt (adoptArguments role id ingress egress first width attenuation window) 7 = ⟨first.toNat, width.toNat⟩ ∧
    byteAt (adoptArguments role id ingress egress first width attenuation window) 10 = attenuation ∧
    byteAt (adoptArguments role id ingress egress first width attenuation window) 11 = window := by
  simp [adoptArguments, byteAt, word32At, runAt, word16At, bytes32, bytes16, word32_bytes32, word16_bytes16]

theorem adoptBody_wrongState (args : List Byte) (h : s.nodeId = 0) : adoptBody args s = .refused .wrongState := if_pos h

theorem adoptBody_badArgument (hn : s.nodeId ≠ 0) (h : adoptSides role ingress egress = none ∨
    (⟨first.toNat, width.toNat⟩ : Run).isSlotRun = false ∨ 250 < attenuation.toNat) :
    adoptBody (adoptArguments role id ingress egress first width attenuation window) s = .refused .badArgument := by
  obtain ⟨h0, h1, h5, h6, h7, h10, h11⟩ :=
    adoptArguments_read (role := role) (id := id) (ingress := ingress) (egress := egress) (first := first) (width := width)
      (attenuation := attenuation) (window := window)
  unfold adoptBody
  rw [if_neg hn, h0, h1, h5, h6, h7, h10, h11]
  split
  · rfl
  next sides hs =>
    rcases h with h | h | h
    · rw [h] at hs; cases hs
    · dsimp only; rw [h]; rfl
    · exact if_pos (by simp [h])

theorem adoptBody_checked {sides : Sides} (hn : s.nodeId ≠ 0) (hs : adoptSides role ingress egress = some sides)
    (hr : (⟨first.toNat, width.toNat⟩ : Run).isSlotRun = true) (ha : attenuation.toNat ≤ 250) :
    adoptBody (adoptArguments role id ingress egress first width attenuation window) s =
      adoptChecked s sides id ⟨first.toNat, width.toNat⟩
        (adoptedContext s sides id ⟨first.toNat, width.toNat⟩ attenuation.toNat (clampNat 1 20 window.toNat)) := by
  obtain ⟨h0, h1, h5, h6, h7, h10, h11⟩ :=
    adoptArguments_read (role := role) (id := id) (ingress := ingress) (egress := egress) (first := first) (width := width)
      (attenuation := attenuation) (window := window)
  unfold adoptBody
  rw [if_neg hn, h0, h1, h5, h6, h7, h10, h11, hs]
  exact if_neg (by simp [hr]; omega)

end

section
variable {sides : Sides} {id : Word32} {run : Run} {c : Context} {i : CtxIx}

theorem adoptChecked_duplicate (h : ¬NoneLive s id) : adoptChecked s sides id run c = .refused .duplicateId :=
  if_pos (State.findLive_isSome_iff.2 h)

theorem adoptChecked_noContext (h : NoneLive s id) (hc : s.chooseRecord = none) :
    adoptChecked s sides id run c = .refused .noContext := by
  rw [adoptChecked, State.findLive_eq_none_iff.2 h, hc]; rfl

theorem adoptChecked_busy (h : NoneLive s id) (hi : Chooses s i)
    (hb : (s.point sides.point).service.overlaps run = true) : adoptChecked s sides id run c = .refused .busy := by
  rw [adoptChecked, State.findLive_eq_none_iff.2 h, State.chooseRecord_eq_some hi]
  exact if_pos hb

/-- Past the service request the claim decides (R171, steps 6 and 7). -/
theorem adoptChecked_claim (h : NoneLive s id) (hi : Chooses s i)
    (hb : (s.point sides.point).service.overlaps run = false) : adoptChecked s sides id run c =
      match s.conflict sides.mapsUsed run with
      | some (k, m) => .refused (.slotBusy k m)
      | none =>
        if !fits (s.point sides.point) (chargeOf c.target c.window) then .refused .overBudget
        else .accepted (((s.writeRun sides.mapsUsed run (.lit i)).modPoint sides.point fun p =>
          { p with load := p.load + chargeOf c.target c.window }).create i c .inService)
            ([indexByte i] ++ nat32 (chargeOf c.target c.window)) := by
  rw [adoptChecked, State.findLive_eq_none_iff.2 h, State.chooseRecord_eq_some hi]
  dsimp only
  rw [hb]
  rfl

end

/-- The offsets of R45. -/
theorem widthOffset_table : ∀ x ∈ ([(2, 30), (3, 48), (4, 60), (5, 70), (6, 78), (7, 85), (8, 90), (9, 95), (10, 100),
    (11, 104), (12, 108), (13, 111), (14, 115), (15, 118), (16, 120)] : List (Nat × Int)), widthOffset x.1 = x.2 := by
  decide

theorem fits_iff {p : Point} {q : Nat} : fits p q = true ↔ p.load + q ≤ forward p.limit := by simp [fits]

end Sys2Proof.Machine

open Sys2Proof Sys2Proof.Machine

/-- Settles O25: the bytes read back, every check passes, and the body's record is the one named. -/
theorem adoptRegistersALitChannel : Obligations.AdoptRegistersALitChannel := by
  refine ⟨fun density width offset h => ?_, fun a d e => ?_, ⟨rfl, rfl, rfl, fun _ => rfl⟩, ?_⟩
  · have ho : widthOffset width = offset := widthOffset_table _ h
    rw [targetOf, ho]; rfl
  · and_intros <;> rfl
  · intro s sides id run attenuation windowByte i h hrun ha hn hnone hi hfree hservice target window charge ht hw hq
    obtain ⟨h2, h16, h383, h384⟩ := Run.isSlotRun_iff.1 hrun
    have hround : (⟨(BitVec.ofNat 16 run.first).toNat, (byte run.width).toNat⟩ : Run) = run := by
      rw [ofNat16_toNat (by omega), byte_toNat (by omega)]
    have hatten : (byte attenuation).toNat = attenuation := byte_toNat (by omega)
    have hover : (s.point sides.point).service.overlaps run = false := by
      rw [← Bool.not_eq_true, Service.overlaps_iff]
      rintro ⟨r, hr, k, hk⟩
      exact hservice r hr k hk
    have hbody : adoptBody (adoptArguments sides.role.code id sides.ingressByte sides.egressByte (BitVec.ofNat 16 run.first)
        (byte run.width) (byte attenuation) windowByte) (s.taken 0) = _ :=
      adoptBody_checked (s := s.taken 0) hn (adoptSides_eq_some.2 ⟨rfl, rfl, rfl⟩) (by rw [hround]; exact hrun) (by omega)
    rw [hround, hatten, adoptChecked_claim (s := s.taken 0) (i := i) hnone hi hover,
      State.conflict_of_freeOn (s := s.taken 0) hfree] at hbody
    have hpoint : (s.taken 0).point = s.point := rfl
    have hcharge : chargeOf (adoptedContext (s.taken 0) sides id run attenuation (clampNat 1 20 windowByte.toNat)).target
        (adoptedContext (s.taken 0) sides id run attenuation (clampNat 1 20 windowByte.toNat)).window = charge := by
      rw [hq, hw, ht]; rfl
    rw [hcharge] at hbody
    dsimp only at hbody
    refine ⟨fun hfits => ?_, fun hover => ?_⟩
    · rw [if_neg (by simpa [fits_iff, hpoint] using hfits)] at hbody
      refine (runCommand_accepted h rfl rfl rfl ((stationZero_zero _ _ _).trans hbody)).trans ?_
      subst hq hw ht; rfl
    · rw [if_pos (by simpa [← Bool.not_eq_true, fits_iff, hpoint] using hover)] at hbody
      exact runCommand_refused h rfl rfl rfl ((stationZero_zero _ _ _).trans hbody)
end

section
/-! ## BEGIN LIGHTPATH (R99, R100) and what a creation changes (R28, R32) -/

namespace Sys2Proof.Machine

variable {s : State}

/-! ### The search for a FREE run (R10) -/

section
variable {m : MapIx} {w f : Nat}

theorem searchRun_low (hw : f + w ≤ 384) (hf : FreeOn s [m] ⟨f, w⟩) (below : ∀ g < f, ¬FreeOn s [m] ⟨g, w⟩) :
    s.searchRun m w false = some f := by
  refine List.find?_range_eq_some.2 ⟨?_, List.mem_range.2 (by omega), fun g hg => ?_⟩
  · simpa using State.freeOn_iff.1 hf
  · have := below g hg
    rw [State.freeOn_iff] at this
    simpa [Option.isSome_iff_ne_none] using this

theorem searchRun_high (hw : f + w ≤ 384) (hf : FreeOn s [m] ⟨f, w⟩)
    (above : ∀ g, f < g → g + w ≤ 384 → ¬FreeOn s [m] ⟨g, w⟩) : s.searchRun m w true = some f := by
  have hsplit : List.range (385 - w) = List.range' 0 f ++ f :: List.range' (f + 1) (385 - w - (f + 1)) := by
    have hn : 385 - w = f + ((385 - w - (f + 1)) + 1) := by omega
    rw [List.range_eq_range']
    conv_lhs => rw [hn]
    rw [← List.range'_append_1, List.range'_succ, Nat.zero_add]
  have hnone : (List.range' (f + 1) (385 - w - (f + 1))).reverse.find? (fun g => (s.conflict [m] ⟨g, w⟩).isNone) = none :=
    List.find?_eq_none.2 fun g hg => by
      rw [List.mem_reverse, List.mem_range'_1] at hg
      have := above g (by omega) (by omega)
      rw [State.freeOn_iff] at this
      simpa [Option.isSome_iff_ne_none] using this
  have hfree : (s.conflict [m] ⟨f, w⟩).isNone = true := by simpa using State.freeOn_iff.1 hf
  simp only [State.searchRun, if_true]
  rw [hsplit, List.reverse_append, List.reverse_cons, List.append_assoc, List.find?_append, hnone, List.singleton_append,
    List.find?_cons_of_pos (p := fun g => (s.conflict [m] ⟨g, w⟩).isNone) hfree]
  rfl

theorem searchRun_none (h : ∀ f, f + w ≤ 384 → ¬FreeOn s [m] ⟨f, w⟩) (high : Bool) : s.searchRun m w high = none := by
  refine List.find?_eq_none.2 fun g hg => ?_
  have hlt : g < 385 - w := by
    cases high
    · exact List.mem_range.1 hg
    · exact List.mem_range.1 (List.mem_reverse.1 hg)
  have := h g (by omega)
  rw [State.freeOn_iff] at this
  simpa [Option.isSome_iff_ne_none] using this

end

/-! ### The claim (R8, R10) -/

section
variable {m : MapIx} {a : BeginArgs} {f : Nat}

theorem auto_iff : a.auto = true ↔ a.first = 0xFFFE#16 ∨ a.first = 0xFFFF#16 := by
  simp [BeginArgs.auto, autoLow, autoHigh]

theorem auto_of_fixed (h : a.first.toNat ≤ 383) : a.auto = false := by
  rw [← Bool.not_eq_true, auto_iff]
  rintro (e | e) <;> rw [e] at h <;> exact absurd h (by decide)

theorem beginClaim_fixed (h : a.first.toNat ≤ 383) (hf : FreeOn s [m] ⟨a.first.toNat, a.width⟩) :
    beginClaim s m a = .inl a.first.toNat := by
  rw [beginClaim, auto_of_fixed h, State.conflict_of_freeOn hf]; rfl

theorem beginClaim_busy {k : Nat} (h : a.first.toNat ≤ 383) (hk : (⟨a.first.toNat, a.width⟩ : Run).covers k = true)
    (hm : s.slotAt m k ≠ .free) (before : ∀ j, a.first.toNat ≤ j → j < k → s.slotAt m j = .free) :
    beginClaim s m a = .inr (.slotBusy k m) := by
  have hc : s.conflict [m] ⟨a.first.toNat, a.width⟩ = some (k, m) :=
    State.conflict_eq_some (a := []) (b := []) rfl hk hm (by simp) fun j hj hjk n hn => by
      rw [List.mem_singleton.1 hn]; exact before j hj hjk
  rw [beginClaim, auto_of_fixed h, hc]; rfl

theorem beginClaim_low (h : a.first = 0xFFFE#16) (hw : f + a.width ≤ 384) (hf : FreeOn s [m] ⟨f, a.width⟩)
    (below : ∀ g < f, ¬FreeOn s [m] ⟨g, a.width⟩) : beginClaim s m a = .inl f := by
  have hhigh : (a.first == autoHigh) = false := by rw [h]; rfl
  rw [beginClaim, auto_iff.2 (.inl h), hhigh, searchRun_low hw hf below]; rfl

theorem beginClaim_high (h : a.first = 0xFFFF#16) (hw : f + a.width ≤ 384) (hf : FreeOn s [m] ⟨f, a.width⟩)
    (above : ∀ g, f < g → g + a.width ≤ 384 → ¬FreeOn s [m] ⟨g, a.width⟩) : beginClaim s m a = .inl f := by
  have hhigh : (a.first == autoHigh) = true := by rw [h]; rfl
  rw [beginClaim, auto_iff.2 (.inr h), hhigh, searchRun_high hw hf above]; rfl

theorem beginClaim_none (h : a.first = 0xFFFE#16 ∨ a.first = 0xFFFF#16)
    (hf : ∀ f, f + a.width ≤ 384 → ¬FreeOn s [m] ⟨f, a.width⟩) : beginClaim s m a = .inr .noFreeRun := by
  rw [beginClaim, auto_iff.2 h, searchRun_none hf]; rfl

end

/-! ### The body -/

/-- The arguments of a BEGIN LIGHTPATH as its layout lays them out (R180). -/
def beginArguments (id : Word32) (port len : Byte) (first : Word16) (width window step flags : Byte) (route : List Byte) :
    List Byte := bytes32 id ++ [port, len] ++ bytes16 first ++ [width, window, step, flags] ++ route

/-- BEGIN LIGHTPATH once its arguments are found good: the ID, the record, the link and the claim (R99, R100). -/
def beginChecked (s : State) (st : Station) (addPort : Fin 16) (e : Degree) (a : BeginArgs) : Verdict :=
  if (s.findLive a.id).isSome then .refused .duplicateId
  else match s.chooseRecord with
    | none => .refused .noContext
    | some i =>
      if (s.link e).state ≠ .up then .refused .linkDown
      else match beginClaim s (egressMap e) a with
        | .inr r => .refused r
        | .inl first =>
          .accepted (((s.writeRun [egressMap e] ⟨first, a.width⟩ (.held i)).create i
            (headContext s st addPort e ⟨first, a.width⟩ a) .probing).offer e a.id
              (.probe 1 first a.width a.window a.step a.length a.route)) ([indexByte i] ++ nat16 first)

section
variable {id : Word32} {port len width window step flags : Byte} {first : Word16} {route : List Byte}

/-- What the body reads out of its arguments (R99, R180). -/
theorem beginArgs_beginArguments : beginArgs (beginArguments id port len first width window step flags route) =
    ⟨id, port, len.toNat, first, width.toNat, clampByte 20 window, clampByte 30 step, flags, route⟩ := by
  simp [beginArgs, beginArguments, byteAt, word32At, word16At, bytes32, bytes16, word32_bytes32, word16_bytes16]

theorem beginLayout_beginArguments (h : route.length = len.toNat) :
    beginLayout (beginArguments id port len first width window step flags route) = true := by
  simp [beginLayout, beginArguments, byteAt, bytes32, bytes16, h]
  omega

end

section
variable {a : BeginArgs} {st : Station} {args : List Byte}

theorem permitted_iff : a.permitted st = true ↔ st = 0 ∨ ∃ e ∈ a.route.head?, e.toNat + 1 = st.val := by
  simp [BeginArgs.permitted, Option.any_eq_true]

/-- The argument check of R99, step 3, with the reserved flag bits as Config has them (log entry 4). -/
theorem valid_iff (h : a.route.length = a.length) : a.valid = true ↔
    (a.addPort.toNat ≤ 15 ∧ 2 ≤ a.length ∧ a.length ≤ 32 ∧ (∀ x ∈ a.route.dropLast, x.toNat ≤ 7) ∧
      (a.route.getLastD 0).toNat ≤ 15 ∧ 2 ≤ a.width ∧ a.width ≤ 16 ∧
      (a.first = 0xFFFE#16 ∨ a.first = 0xFFFF#16 ∨ (a.first.toNat ≤ 383 ∧ a.first.toNat + a.width ≤ 384))) ∧
    (a.flags.toNat ≤ 1 ∨ Config.beginReservedFlagsRefused a.flags = false) := by
  simp only [BeginArgs.valid, routeWellFormed, h, Bool.and_eq_true, Bool.or_eq_true, decide_eq_true_eq, auto_iff,
    beq_self_eq_true, List.all_eq_true, Bool.not_eq_true', Bool.and_eq_false_iff, decide_eq_false_iff_not, true_and,
    and_assoc, or_assoc, not_le, Nat.lt_succ_iff (n := 1)]

/-- Good arguments name an add port and an egress degree (R99, step 3). -/
theorem ports_of_valid (h : a.route.length = a.length) (hv : a.valid = true) :
    ∃ addPort e, portArg a.addPort = some addPort ∧ degreeArg (a.route.headD 0) = some e := by
  obtain ⟨⟨hp, h2, -, hr, -⟩, -⟩ := (valid_iff h).1 hv
  have hhead : (a.route.headD 0).toNat ≤ 7 := by
    match hroute : a.route, h2, h with
    | [], h2, h => simp at h; omega
    | [x], h2, h => simp at h; omega
    | x :: y :: l, _, _ => exact hr x (by simp [hroute])
  exact ⟨_, _, dif_pos (by omega), dif_pos (by omega)⟩

/-- A route of degrees behind the egress, with a drop port at its end, gives arguments that pass the checks of R99. -/
theorem permitted_and_valid {a : BeginArgs} {st : Station} {e : Degree} {middle : List Byte} {drop : Byte}
    (hroute : a.route = (indexByte e :: middle) ++ [drop]) (hlen : a.length = a.route.length) (h32 : a.length ≤ 32)
    (hmiddle : ∀ x ∈ middle, x.toNat ≤ 7) (hdrop : drop.toNat ≤ 15) (hst : st = 0 ∨ st.val = e.val + 1)
    (hw : 2 ≤ a.width ∧ a.width ≤ 16) (hp : a.addPort.toNat ≤ 15)
    (hflags : a.flags.toNat ≤ 1 ∨ Config.beginReservedFlagsRefused a.flags = false)
    (hfirst : a.first = 0xFFFE#16 ∨ a.first = 0xFFFF#16 ∨ (a.first.toNat ≤ 383 ∧ a.first.toNat + a.width ≤ 384)) :
    a.permitted st = true ∧ a.valid = true := by
  have he : (indexByte e).toNat = e.val := indexByte_toNat e (by omega)
  refine ⟨permitted_iff.2 ?_, (valid_iff hlen.symm).2 ⟨⟨hp, ?_, h32, ?_, ?_, hw.1, hw.2, hfirst⟩, hflags⟩⟩
  · exact hst.imp_right fun h => ⟨indexByte e, by rw [hroute]; rfl, by omega⟩
  · rw [hlen, hroute]; simp
  · rw [hroute, List.dropLast_concat]
    intro x hx
    rcases List.mem_cons.1 hx with rfl | hx
    · omega
    · exact hmiddle x hx
  · rw [hroute, List.getLastD_eq_getLast?, List.getLast?_concat]; exact hdrop

theorem beginBody_notPermitted (ha : beginArgs args = a) (hp : a.permitted st = false) :
    beginBody st args s = .refused .notPermitted := by
  unfold beginBody; dsimp only; rw [ha, hp]; rfl

theorem beginBody_nodeClosed (ha : beginArgs args = a) (hp : a.permitted st = true) (ho : s.nodeOpen = false) :
    beginBody st args s = .refused .nodeClosed := by
  unfold beginBody; dsimp only; rw [ha, hp, ho]; rfl

theorem beginBody_badArgument (ha : beginArgs args = a) (hp : a.permitted st = true) (ho : s.nodeOpen = true)
    (hv : a.valid = false) : beginBody st args s = .refused .badArgument := by
  unfold beginBody; dsimp only; rw [ha, hp, ho, hv]; rfl

theorem beginBody_checked {addPort : Fin 16} {e : Degree} (ha : beginArgs args = a) (hp : a.permitted st = true)
    (ho : s.nodeOpen = true) (hv : a.valid = true) (hport : portArg a.addPort = some addPort)
    (he : degreeArg (a.route.headD 0) = some e) : beginBody st args s = beginChecked s st addPort e a := by
  unfold beginBody; dsimp only; rw [ha, hp, ho, hv, hport, he]; rfl

variable {addPort : Fin 16} {e : Degree} {i : CtxIx}

theorem beginChecked_duplicate (h : ¬NoneLive s a.id) : beginChecked s st addPort e a = .refused .duplicateId :=
  if_pos (State.findLive_isSome_iff.2 h)

theorem beginChecked_noContext (h : NoneLive s a.id) (hc : s.chooseRecord = none) :
    beginChecked s st addPort e a = .refused .noContext := by
  rw [beginChecked, State.findLive_eq_none_iff.2 h, hc]; rfl

theorem beginChecked_linkDown (h : NoneLive s a.id) (hi : Chooses s i) (hl : (s.link e).state ≠ .up) :
    beginChecked s st addPort e a = .refused .linkDown := by
  rw [beginChecked, State.findLive_eq_none_iff.2 h, State.chooseRecord_eq_some hi]; exact if_pos hl

theorem beginChecked_refused {r : ReplyCause} (h : NoneLive s a.id) (hi : Chooses s i) (hl : (s.link e).state = .up)
    (hc : beginClaim s (egressMap e) a = .inr r) : beginChecked s st addPort e a = .refused r := by
  rw [beginChecked, State.findLive_eq_none_iff.2 h, State.chooseRecord_eq_some hi, hl, hc]; rfl

theorem beginChecked_accepted {f : Nat} (h : NoneLive s a.id) (hi : Chooses s i) (hl : (s.link e).state = .up)
    (hc : beginClaim s (egressMap e) a = .inl f) : beginChecked s st addPort e a =
      .accepted (((s.writeRun [egressMap e] ⟨f, a.width⟩ (.held i)).create i
        (headContext s st addPort e ⟨f, a.width⟩ a) .probing).offer e a.id
          (.probe 1 f a.width a.window a.step a.length a.route)) ([indexByte i] ++ nat16 f) := by
  rw [beginChecked, State.findLive_eq_none_iff.2 h, State.chooseRecord_eq_some hi, hl, hc]; rfl

end

/-- A BEGIN LIGHTPATH whose route leads out on a degree with its link UP and whose run is claimed creates the head and offers the PROBE
(R100). -/
theorem begin_accepted {args : List Byte} {a : BeginArgs} {st : Station} {addPort : Fin 16} {e : Degree} {middle : List Byte}
    {drop : Byte} {i : CtxIx} {f : Nat} (ha : beginArgs args = a) (h : Executes s st 0x20 args) (hl : beginLayout args = true)
    (hport : a.addPort = indexByte addPort) (hroute : a.route = (indexByte e :: middle) ++ [drop])
    (hlen : a.length = a.route.length) (h32 : a.length ≤ 32) (hmiddle : ∀ x ∈ middle, x.toNat ≤ 7) (hdrop : drop.toNat ≤ 15)
    (hst : st = 0 ∨ st.val = e.val + 1) (hopen : s.nodeOpen = true) (h2 : 2 ≤ a.width) (h16 : a.width ≤ 16)
    (hflags : a.flags.toNat ≤ 1 ∨ Config.beginReservedFlagsRefused a.flags = false) (hnone : NoneLive s a.id)
    (hi : Chooses s i) (hup : (s.link e).state = .up) (hfree : FreeOn s [egressMap e] ⟨f, a.width⟩) (hf : f + a.width ≤ 384)
    (hclaim : (a.first.toNat = f) ∨
      (a.first = 0xFFFE#16 ∧ ∀ g < f, ¬FreeOn s [egressMap e] ⟨g, a.width⟩) ∨
      (a.first = 0xFFFF#16 ∧ ∀ g, f < g → g + a.width ≤ 384 → ¬FreeOn s [egressMap e] ⟨g, a.width⟩)) :
    exec .beginLightpath s = .next (((((s.taken st).writeRun [egressMap e] ⟨f, a.width⟩ (.held i)).create i
      (headContext (s.taken st) st addPort e ⟨f, a.width⟩ a) .probing).offer e a.id
        (.probe 1 f a.width a.window a.step a.length a.route)).accepting st 0x20 ([indexByte i] ++ nat16 f)) := by
  have hfirst : a.first = 0xFFFE#16 ∨ a.first = 0xFFFF#16 ∨ (a.first.toNat ≤ 383 ∧ a.first.toNat + a.width ≤ 384) := by
    rcases hclaim with h | ⟨h, -⟩ | ⟨h, -⟩
    · exact .inr (.inr (by omega))
    · exact .inl h
    · exact .inr (.inl h)
  have hport15 : a.addPort.toNat ≤ 15 := by rw [hport, indexByte_toNat addPort (by omega)]; omega
  obtain ⟨hperm, hvalid⟩ := permitted_and_valid hroute hlen h32 hmiddle hdrop hst ⟨h2, h16⟩ hport15 hflags hfirst
  have hhead : degreeArg (a.route.headD 0) = some e := by rw [hroute]; exact degreeArg_indexByte e
  have hclaimed : beginClaim (s.taken st) (egressMap e) a = .inl f := by
    rcases hclaim with h | ⟨h, below⟩ | ⟨h, above⟩
    · subst h
      exact beginClaim_fixed (by omega) hfree
    · exact beginClaim_low h hf hfree below
    · exact beginClaim_high h hf hfree above
  have hbody := beginBody_checked (s := s.taken st) ha hperm hopen hvalid (by rw [hport]; exact portArg_indexByte addPort) hhead
  rw [beginChecked_accepted (s := s.taken st) (i := i) hnone hi hup hclaimed] at hbody
  exact runCommand_accepted h rfl rfl hl hbody

/-! ### A creation (R28, R32) -/

/-- What a creation over a written run changes, and that it changes nothing else. -/
theorem create_writeRun_effect (s : State) (maps : List MapIx) (run : Run) (slot : Slot) (i : CtxIx) (c : Context)
    (st : CtxState) {t : State} (ht : t = (s.writeRun maps run slot).create i c st) :
    t.context i = (s.enter i c st).context i ∧
    (∀ j, j ≠ i → t.context j = s.context j) ∧ t.endedList = s.endedList.erase i ∧
    (∀ (x : Station) (j : CtxIx), (t.changed[x])[j] = if j = i then decide (x = 0 ∨ x = c.owner) else (s.changed[x])[j]) ∧
    (∀ (m : MapIx) (k : Nat), k < 384 → t.slotAt m k =
      if m ∈ maps ∧ run.first ≤ k ∧ k < run.first + run.width then slot else s.slotAt m k) ∧
    { t with contexts := s.contexts, endedList := s.endedList, changed := s.changed, maps := s.maps } = s := by
  subst ht
  refine ⟨?_, fun j hj => ?_, by simp, fun x j => ?_, fun m k hk => ?_, ?_⟩
  · rw [State.create_context, State.enter_context, if_pos rfl, if_pos rfl, State.writeRun_timing]
  · rw [State.create_context, if_neg (Ne.symm hj)]
    simp [State.context]
  · rw [State.create_changed]
    simp [eq_comm]
  · simp only [← Run.covers_iff]
    exact State.writeRun_slotAt s maps run slot m hk
  · rw [State.writeRun_eq]; rfl

end Sys2Proof.Machine

open Sys2Proof Sys2Proof.Machine

/-- Settles O26: the creation's effect, and the body past its checks with each way to claim the run. -/
theorem beginCreatesAHeadAndSendsAProbe : Obligations.BeginCreatesAHeadAndSendsAProbe := by
  refine ⟨fun s t maps run slot i c st ht => create_writeRun_effect s maps run slot i c st ht, ?_⟩
  intro s st id addPort first width window step flags e middle drop i f route hroute hlen hmiddle hdrop h hst hopen h2 h16
    hflags hnone hi hup hfree hf hclaim w b hw hb
  have hlen' : (byte route.length).toNat = route.length := byte_toNat (by omega)
  refine (begin_accepted beginArgs_beginArguments h (beginLayout_beginArguments hlen'.symm) rfl hroute hlen'
    (hlen'.trans_le hlen) hmiddle hdrop hst hopen h2 h16 hflags hnone hi hup hfree hf hclaim).trans ?_
  subst hw hb
  simp only [hlen']
  rfl
end

section
/-! ## The refusals of ADOPT LIGHTPATH and BEGIN LIGHTPATH, in order (R99, R171) -/

namespace Sys2Proof.Machine

section
variable {s : State} {role ingress egress width attenuation window : Byte} {id : Word32} {first : Word16}

/-- The refusals of an ADOPT LIGHTPATH whose arguments are good, up to the claim (R171, steps 3 to 6). -/
theorem adopt_refusals (h : Executes s 0 0x1C (adoptArguments role id ingress egress first width attenuation window))
    (hn : s.nodeId ≠ 0) (hr : (⟨first.toNat, width.toNat⟩ : Run).isSlotRun = true) (ha : attenuation.toNat ≤ 250)
    {x : Sides} (hx : adoptSides role ingress egress = some x) :
    (¬NoneLive s id → exec .adoptLightpath s = .next ((s.taken 0).refusing 0 0x1C 0x07 [])) ∧
    (NoneLive s id → (∀ i, s.context i ≠ none) → s.endedList = [] →
      exec .adoptLightpath s = .next ((s.taken 0).refusing 0 0x1C 0x06 [])) ∧
    ∀ i k, NoneLive s id → Chooses s i → (⟨first.toNat, width.toNat⟩ : Run).covers k = true →
      (∀ r, (s.point x.point).service = .pending r ∨ (s.point x.point).service = .active r → r.covers k = true →
        exec .adoptLightpath s = .next ((s.taken 0).refusing 0 0x1C 0x0E [])) ∧
      ∀ a m b, (∀ r, (s.point x.point).service = .pending r ∨ (s.point x.point).service = .active r →
          ∀ q, ¬(r.covers q = true ∧ (⟨first.toNat, width.toNat⟩ : Run).covers q = true)) →
        x.mapsUsed = a ++ m :: b → s.slotAt m k ≠ .free → (∀ n ∈ a, s.slotAt n k = .free) →
        (∀ j, first.toNat ≤ j → j < k → ∀ n ∈ x.mapsUsed, s.slotAt n j = .free) →
        exec .adoptLightpath s = .next ((s.taken 0).refusing 0 0x1C 0x08 (nat16 k ++ [indexByte m])) := by
  have refused {r : ReplyCause} (hc : ∀ c : Context,
      adoptChecked (s.taken 0) x id ⟨first.toNat, width.toNat⟩ c = .refused r) :
      exec .adoptLightpath s = .next ((s.taken 0).refusing 0 0x1C r.code r.detail) :=
    runCommand_refused h rfl rfl rfl ((stationZero_zero _ _ _).trans
      ((adoptBody_checked (s := s.taken 0) hn hx hr ha).trans (hc _)))
  refine ⟨fun hd => refused (r := .duplicateId) fun c => adoptChecked_duplicate (s := s.taken 0) hd, fun hnone hf he =>
    refused (r := .noContext) fun c => adoptChecked_noContext (s := s.taken 0) hnone
      (State.chooseRecord_eq_none (s := s.taken 0) hf he), fun i k hnone hi hk => ⟨fun r hserv hrk => ?_, ?_⟩⟩
  · have hover : (s.point x.point).service.overlaps ⟨first.toNat, width.toNat⟩ = true :=
      Service.overlaps_iff.2 ⟨r, hserv, k, hrk, hk⟩
    exact refused (r := .busy) fun c => adoptChecked_busy (s := s.taken 0) (i := i) hnone hi hover
  · intro a m b hserv hmaps hm hbefore hlow
    have hover : (s.point x.point).service.overlaps ⟨first.toNat, width.toNat⟩ = false := by
      rw [← Bool.not_eq_true, Service.overlaps_iff]
      rintro ⟨r, hr, q, hq⟩
      exact hserv r hr q hq
    refine refused (r := .slotBusy k m) fun c => ?_
    rw [adoptChecked_claim (s := s.taken 0) (i := i) hnone hi hover,
      State.conflict_eq_some (s := s.taken 0) hmaps hk hm hbefore hlow]

end

section
variable {s : State} {st : Station} {args : List Byte} {a : BeginArgs}

/-- How a BEGIN LIGHTPATH with good arguments is refused: by its ID, its record, its link or its claim (R99, steps 4 to 7). -/
def BeginRefusals (s : State) (st : Station) (a : BeginArgs) : Prop :=
  (¬NoneLive s a.id → exec .beginLightpath s = .next ((s.taken st).refusing st 0x20 0x07 [])) ∧
  (NoneLive s a.id → (∀ i, s.context i ≠ none) → s.endedList = [] →
    exec .beginLightpath s = .next ((s.taken st).refusing st 0x20 0x06 [])) ∧
  ∀ i (e : Degree), NoneLive s a.id → Chooses s i → a.route.head? = some (indexByte e) →
    ((s.link e).state ≠ .up → exec .beginLightpath s = .next ((s.taken st).refusing st 0x20 0x0D [])) ∧
    ((s.link e).state = .up → ∀ k, a.first.toNat ≤ 383 → (⟨a.first.toNat, a.width⟩ : Run).covers k = true →
      s.slotAt (egressMap e) k ≠ .free → (∀ j, a.first.toNat ≤ j → j < k → s.slotAt (egressMap e) j = .free) →
      exec .beginLightpath s = .next ((s.taken st).refusing st 0x20 0x08 (nat16 k ++ [indexByte (egressMap e)]))) ∧
    ((s.link e).state = .up → a.first = 0xFFFE#16 ∨ a.first = 0xFFFF#16 →
      (∀ f, f + a.width ≤ 384 → ¬FreeOn s [egressMap e] ⟨f, a.width⟩) →
      exec .beginLightpath s = .next ((s.taken st).refusing st 0x20 0x09 []))

/-- The refusals of a BEGIN LIGHTPATH that passes its argument check (R99, steps 4 to 7). -/
theorem begin_refusals (h : Executes s st 0x20 args) (hl : beginLayout args = true) (ha : beginArgs args = a)
    (hlen : a.route.length = a.length) (hp : a.permitted st = true) (ho : s.nodeOpen = true) (hv : a.valid = true) :
    BeginRefusals s st a := by
  obtain ⟨addPort, e, hport, he⟩ := ports_of_valid hlen hv
  have refused {r : ReplyCause} (hc : beginChecked (s.taken st) st addPort e a = .refused r) :
      exec .beginLightpath s = .next ((s.taken st).refusing st 0x20 r.code r.detail) :=
    runCommand_refused h rfl rfl hl ((beginBody_checked (s := s.taken st) ha hp ho hv hport he).trans hc)
  refine ⟨fun hd => refused (r := .duplicateId) (beginChecked_duplicate (s := s.taken st) hd), fun hnone hf hend =>
    refused (r := .noContext) (beginChecked_noContext (s := s.taken st) hnone
      (State.chooseRecord_eq_none (s := s.taken st) hf hend)), fun i e' hnone hi hhead => ?_⟩
  obtain rfl : e = e' := by
    rw [List.headD_eq_head?_getD, hhead, Option.getD_some, degreeArg_indexByte] at he
    exact (Option.some.inj he).symm
  refine ⟨fun hdown => ?_, fun hup k hfix hk hm hbefore => ?_, fun hup hauto hfree => ?_⟩
  · exact refused (r := .linkDown) (beginChecked_linkDown (s := s.taken st) (i := i) hnone hi hdown)
  · exact refused (r := .slotBusy k (egressMap e)) (beginChecked_refused (s := s.taken st) (i := i) hnone hi hup
      (beginClaim_busy hfix hk hm hbefore))
  · exact refused (r := .noFreeRun) (beginChecked_refused (s := s.taken st) (i := i) hnone hi hup
      (beginClaim_none hauto hfree))

/-- The checks of a BEGIN LIGHTPATH in their order (R99). -/
theorem begin_checks {permitted valid : Prop} (ha : beginArgs args = a) (h : Executes s st 0x20 args)
    (hl : beginLayout args = true) (hlen : a.route.length = a.length) (hper : permitted ↔ a.permitted st = true)
    (hval : a.valid = true ↔ valid ∧ (a.flags.toNat ≤ 1 ∨ Config.beginReservedFlagsRefused a.flags = false)) :
    (¬permitted → exec .beginLightpath s = .next ((s.taken st).refusing st 0x20 0x01 [])) ∧
    (permitted → s.nodeOpen = false → exec .beginLightpath s = .next ((s.taken st).refusing st 0x20 0x03 [])) ∧
    (permitted → s.nodeOpen = true → ¬valid → exec .beginLightpath s = .next ((s.taken st).refusing st 0x20 0x05 [])) ∧
    (permitted → s.nodeOpen = true → valid → 1 < a.flags.toNat → Config.beginReservedFlagsRefused a.flags = true →
      exec .beginLightpath s = .next ((s.taken st).refusing st 0x20 0x05 [])) ∧
    (permitted → s.nodeOpen = true → valid →
      (a.flags.toNat ≤ 1 ∨ Config.beginReservedFlagsRefused a.flags = false) → BeginRefusals s st a) := by
  have badArgument (hp : permitted) (ho : s.nodeOpen = true) (hv : ¬a.valid = true) :
      exec .beginLightpath s = .next ((s.taken st).refusing st 0x20 0x05 []) :=
    runCommand_refused h rfl rfl hl (beginBody_badArgument (s := s.taken st) ha (hper.1 hp) ho (Bool.not_eq_true _ ▸ hv))
  refine ⟨fun hp => ?_, fun hp ho => ?_, fun hp ho hv => ?_, fun hp ho _ hf hc => ?_, fun hp ho hv hf => ?_⟩
  · rw [hper, Bool.not_eq_true] at hp
    exact runCommand_refused h rfl rfl hl (beginBody_notPermitted ha hp)
  · exact runCommand_refused h rfl rfl hl (beginBody_nodeClosed (s := s.taken st) ha (hper.1 hp) ho)
  · exact badArgument hp ho fun hv' => hv (hval.1 hv').1
  · refine badArgument hp ho fun hv' => ?_
    rcases (hval.1 hv').2 with h1 | h1
    · omega
    · rw [hc] at h1; cases h1
  · exact begin_refusals h hl ha hlen (hper.1 hp) ho (hval.2 ⟨hv, hf⟩)

end

end Sys2Proof.Machine

open Sys2Proof Sys2Proof.Machine

/-- Settles O27: each check of the two bodies in its order. -/
theorem adoptAndBeginRefuseInOrder : Obligations.AdoptAndBeginRefuseInOrder := by
  refine ⟨fun s role ingress egress width attenuation window id first sidesFit runFits h hsides hruns => ?_,
    fun s st id port len width window step flags first route permitted valid hlen h hpermitted hvalid => ?_⟩
  · have hfit : sidesFit ↔ adoptSides role ingress egress ≠ none := by
      rw [hsides, Option.ne_none_iff_exists']
      exact exists_congr fun x => adoptSides_eq_some.symm
    refine ⟨fun hn => ?_, fun hn hbad => ?_, fun hn hr ha x h1 h2 h3 => ?_⟩
    · exact runCommand_refused h rfl rfl rfl ((stationZero_zero _ _ _).trans (adoptBody_wrongState (s := s.taken 0) _ hn))
    · rw [hfit, hruns, not_not, Bool.not_eq_true] at hbad
      exact runCommand_refused h rfl rfl rfl ((stationZero_zero _ _ _).trans (adoptBody_badArgument (s := s.taken 0) hn hbad))
    · exact adopt_refusals h hn (hruns.1 hr) ha (adoptSides_eq_some.2 ⟨h1, h2, h3⟩)
  · exact begin_checks beginArgs_beginArguments h (beginLayout_beginArguments hlen) hlen
      (by rw [hpermitted, permitted_iff])
      ((valid_iff hlen).trans (and_congr_left' hvalid.symm))
end

section
/-! ## The taking of a well-formed frame (R97, R98, R131) -/

namespace Sys2Proof.Machine

/-- Fields read for a kind are the fields of that kind (R95). -/
theorem parseBody_kind {kind : Byte} {f : List Byte} {b : FrameBody} (h : parseBody kind f = some b) : b.kind = kind := by
  unfold parseBody at h
  split at h
  next hk =>
    subst hk
    unfold parseProbe at h
    split at h
    · dsimp only at h; split at h
      · cases h; rfl
      · cases h
    · cases h
  split at h
  next hk =>
    subst hk
    unfold parseClear at h
    split at h
    · split at h
      · cases h; rfl
      · cases h
    · cases h
  split at h
  next hk =>
    subst hk
    unfold parseRefuse at h
    split at h
    · split at h
      · cases h
      · dsimp only at h
        split at h
        · split at h
          · split at h
            · cases h; rfl
            · cases h
          · split at h
            · cases h; rfl
            · cases h
        · cases h
    · cases h
  split at h
  next hk => subst hk; split at h <;> cases h; rfl
  split at h
  next hk => subst hk; split at h <;> cases h; rfl
  split at h
  next hk =>
    subst hk
    unfold parseAbort at h
    split at h
    · split at h
      · split at h <;> cases h; rfl
      · cases h
    · cases h
  split at h
  next hk => subst hk; split at h <;> cases h; rfl
  · cases h

/-- A frame that is read well formed has its kind in its first byte, and its body is read from the fields (R181). -/
theorem parseFrame_body {own : Word16} {l : List Byte} {frame : Frame} (h : parseFrame own l = some frame) :
    ∃ f, parseBody (kindByte l) f = some frame.body := by
  unfold parseFrame at h
  split at h
  · dsimp only at h
    split at h
    · obtain ⟨b, hb, rfl⟩ := Option.map_eq_some_iff.1 h
      exact ⟨_, hb⟩
    · cases h
  · cases h

theorem parseFrame_kind {own : Word16} {l : List Byte} {frame : Frame} (h : parseFrame own l = some frame) :
    kindByte l = frame.body.kind := by
  obtain ⟨f, hf⟩ := parseFrame_body h
  exact (parseBody_kind hf).symm

/-- The route of a well-formed PROBE (R97). -/
theorem parseFrame_probe {own n : Word16} {l route : List Byte} {id : Word32} {k f w window step len : Nat}
    (h : parseFrame own l = some ⟨n, id, .probe k f w window step len route⟩) : routeWellFormed len route = true := by
  obtain ⟨fields, hf⟩ := parseFrame_body h
  have hk : kindByte l = 1 := parseFrame_kind h
  rw [hk, parseBody, if_pos rfl] at hf
  unfold parseProbe at hf
  split at hf
  · dsimp only at hf
    split at hf
    next hc =>
      obtain ⟨-, -, -, -, -, hroute⟩ := hc
      cases hf; exact hroute
    · cases hf
  · cases hf

theorem routeWellFormed_iff {len : Nat} {route : List Byte} : routeWellFormed len route = true ↔
    route.length = len ∧ (∀ x ∈ route.dropLast, x.toNat ≤ 7) ∧ (route.getLastD 0).toNat ≤ 15 := by
  simp [routeWellFormed, and_assoc]

namespace State

variable {s : State} {d : Degree} {frame : Frame}

/-- The head of the queue is taken and acted on by the row of its kind (R131). -/
theorem takeFrame_of_heads (h : Heads s d frame) {ofRow : Byte → Bool} {act : Frame → State → State}
    (hk : ofRow frame.body.kind = true) : s.takeFrame d ofRow act = act frame (s.removeHead d) := by
  obtain ⟨f, rest, hrx, hok, hparse⟩ := h
  have hrow : ofRow (kindByte f.bytes) = true := by rw [parseFrame_kind hparse]; exact hk
  unfold State.takeFrame
  rw [hrx]
  dsimp only
  rw [if_pos ⟨hok, hrow⟩, hparse]

/-- A frame whose context meets the row of its kind acts on it (R98). -/
theorem forContext_of_live {i : CtxIx} {c : Context} (h : TheLive s frame.lightpathId i c) {row : Context → Bool}
    {effect : CtxIx → Context → State → State} (hr : row c = true) : s.forContext d frame row effect = effect i c s := by
  unfold State.forContext
  rw [findLive_eq_some h]
  exact if_pos hr

/-- The leaving of a frame changes neither a record nor a map. -/
theorem removeHead_theLive {id : Word32} {i : CtxIx} {c : Context} (h : TheLive s id i c) (d : Degree) :
    TheLive (s.removeHead d) id i c := ⟨h.record, h.live, h.carries, h.only⟩

theorem removeHead_link_state (d e : Degree) : ((s.removeHead d).link e).state = (s.link e).state := by
  rw [State.removeHead, State.modLink_link]
  split
  next h => rw [h]
  · rfl

end State

/-! ## A refused PROBE (R102) -/

section
variable {s : State} {d : Degree} {id : Word32} {q : Probe}

/-- The REFUSE that answers a PROBE (R102). -/
def State.refuseProbe (s : State) (d : Degree) (id : Word32) (q : Probe) (cause : Cause) (slot : Option Nat) : State :=
  s.offer d id (.refuse cause s.nodeId q.hop slot)

theorem takeProbe_nodeClosed (h : s.nodeOpen = false) : s.takeProbe d id q = s.refuseProbe d id q .nodeClosed none := by
  unfold State.takeProbe; dsimp only; rw [h]; rfl

theorem takeProbe_duplicateId (ho : s.nodeOpen = true) (h : ¬NoneLive s id) :
    s.takeProbe d id q = s.refuseProbe d id q .duplicateId none := by
  unfold State.takeProbe; dsimp only; rw [ho, if_neg (by simp), if_pos (State.findLive_isSome_iff.2 h)]; rfl

theorem takeProbe_noContext (ho : s.nodeOpen = true) (h : NoneLive s id) (hc : s.chooseRecord = none) :
    s.takeProbe d id q = s.refuseProbe d id q .noContext none := by
  unfold State.takeProbe; dsimp only; rw [ho, State.findLive_eq_none_iff.2 h, hc]; rfl

/-- A PROBE that is not at the end of its route, past the choice of a record. -/
theorem takeProbe_onward {i : CtxIx} {e : Degree} (ho : s.nodeOpen = true) (h : NoneLive s id) (hi : Chooses s i)
    (hk : q.hop + 1 < q.length) (he : q.entry.toNat = e.val) : s.takeProbe d id q =
      if e = d ∨ (s.link e).state ≠ .up then s.refuseProbe d id q .routeInvalid none else s.probeTransit d e id q i := by
  have hentry : degreeArg q.entry = some e := by
    rw [degreeArg, dif_pos (by omega)]; exact congrArg some (Fin.ext he)
  unfold State.takeProbe
  dsimp only
  rw [ho, State.findLive_eq_none_iff.2 h, State.chooseRecord_eq_some hi]
  simp only [Bool.not_true, Bool.false_eq_true, if_false, Option.isSome_none, if_pos hk, hentry]
  rfl

/-- A PROBE at the end of its route, past the choice of a record. -/
theorem takeProbe_last {i : CtxIx} (ho : s.nodeOpen = true) (h : NoneLive s id) (hi : Chooses s i)
    (hk : q.hop + 1 = q.length) (hroute : routeWellFormed q.length q.route = true) :
    ∃ drop, s.takeProbe d id q = s.probeTail d drop id q i := by
  obtain ⟨hlen, -, hdrop⟩ := routeWellFormed_iff.1 hroute
  have hentry : q.entry = q.route.getLastD 0 := by
    have : q.hop = q.route.length - 1 := by omega
    rw [Probe.entry, this, List.getLastD_eq_getLast?, List.getLast?_eq_getElem?, List.getD_eq_getElem?_getD]
  obtain ⟨drop, hport⟩ : ∃ drop, portArg q.entry = some drop :=
    ⟨_, dif_pos (by rw [hentry]; exact Nat.lt_succ_of_le hdrop)⟩
  refine ⟨drop, ?_⟩
  unfold State.takeProbe
  dsimp only
  rw [ho, State.findLive_eq_none_iff.2 h, State.chooseRecord_eq_some hi]
  simp only [Bool.not_true, Bool.false_eq_true, if_false, Option.isSome_none, hk, lt_irrefl, hport]

theorem probeTransit_busy {e : Degree} {i : CtxIx} {k : Nat} {m : MapIx}
    (h : s.conflict [ingressMap d, egressMap e] q.run = some (k, m)) :
    s.probeTransit d e id q i = s.refuseProbe d id q .slotBusy (some k) := by
  unfold State.probeTransit; rw [h]; rfl

theorem probeTail_busy {drop : Fin 16} {i : CtxIx} {k : Nat} {m : MapIx}
    (h : s.conflict [ingressMap d] q.run = some (k, m)) :
    s.probeTail d drop id q i = s.refuseProbe d id q .slotBusy (some k) := by
  unfold State.probeTail; rw [h]; rfl

/-- The lowest slot that is not FREE on one of two maps is the conflict, on the first of them it is not FREE on (R6). -/
theorem State.conflict_pair {m n : MapIx} {r : Run} {k : Nat} (hk : r.covers k = true)
    (hbusy : s.slotAt m k ≠ .free ∨ s.slotAt n k ≠ .free)
    (before : ∀ j, r.first ≤ j → j < k → s.slotAt m j = .free ∧ s.slotAt n j = .free) :
    ∃ x, s.conflict [m, n] r = some (k, x) := by
  have hlow : ∀ j, r.first ≤ j → j < k → ∀ x ∈ [m, n], s.slotAt x j = .free := by
    intro j hj hjk x hx
    obtain ⟨hm, hn⟩ := before j hj hjk
    rcases List.mem_pair.1 hx with rfl | rfl
    · exact hm
    · exact hn
  by_cases hm : s.slotAt m k = .free
  · exact ⟨n, State.conflict_eq_some (a := [m]) (b := []) rfl hk (hbusy.resolve_left (not_not.2 hm)) (by simpa using hm) hlow⟩
  · exact ⟨m, State.conflict_eq_some (a := []) (b := [n]) rfl hk hm (by simp) hlow⟩

end

end Sys2Proof.Machine

open Sys2Proof Sys2Proof.Machine

/-- Settles O35: the taking of the PROBE, and each cause of R102 in its order. -/
theorem refusedProbeAnswersRefuse : Obligations.RefusedProbeAnswersRefuse := by
  intro s d n id k f w window step len route hheads answer hanswer
  have ⟨_, _, _, _, hparse⟩ := hheads
  let q : Probe := ⟨k, ⟨f, w⟩, window, step, len, route⟩
  have hexec : exec (.probe d) s = .next ((s.removeHead d).takeProbe d id q) :=
    congrArg Host.Outcome.next (State.takeFrame_of_heads hheads rfl)
  have answered {cause : Cause} {slot : Option Nat}
      (h : (s.removeHead d).takeProbe d id q = (s.removeHead d).refuseProbe d id q cause slot) :
      exec (.probe d) s = .next (answer cause slot) := by
    rw [hexec, h, hanswer]; rfl
  refine ⟨fun ho => answered (takeProbe_nodeClosed ho), fun ho hd => answered (takeProbe_duplicateId (s := s.removeHead d) ho hd),
    fun ho hnone => ⟨fun hf he => answered (takeProbe_noContext (s := s.removeHead d) ho hnone
      (State.chooseRecord_eq_none (s := s.removeHead d) hf he)), fun i hi => ⟨fun e hk he => ?_, fun hk r h1 h2 hbusy hlow => ?_⟩⟩⟩
  · have honward := takeProbe_onward (s := s.removeHead d) (d := d) (q := q) (i := i) ho hnone hi hk he
    rw [State.removeHead_link_state] at honward
    refine ⟨fun hbad => answered (honward.trans (if_pos hbad)), fun hne hup r h1 h2 hbusy hlow => answered ?_⟩
    obtain ⟨m, hm⟩ := State.conflict_pair (s := s.removeHead d) (r := q.run) (Run.covers_iff.2 ⟨h1, h2⟩) hbusy hlow
    rw [honward, if_neg (by simp [hne, hup]), probeTransit_busy hm]
  · obtain ⟨drop, hlast⟩ := takeProbe_last (s := s.removeHead d) (d := d) (q := q) (i := i) ho hnone hi hk
      (parseFrame_probe hparse)
    have hconflict : (s.removeHead d).conflict [ingressMap d] q.run = some (r, ingressMap d) :=
      State.conflict_eq_some (s := s.removeHead d) (a := []) (b := []) rfl (Run.covers_iff.2 ⟨h1, h2⟩) hbusy (by simp)
        fun j hj hjk m hm => by rw [List.mem_singleton.1 hm]; exact hlow j hj hjk
    exact answered (hlast.trans (probeTail_busy hconflict))

/-- Settles O38: each frame is taken at its context, and the effect of a LIT is read off its operations. -/
theorem lightAndLitMoveTheContext : Obligations.LightAndLitMoveTheContext := by
  intro s d n id i c hlive
  obtain rfl := hlive.carries
  have hlive' := State.removeHead_theLive hlive d
  refine ⟨fun hheads hup hst => ?_, fun hheads hdown hst => ?_⟩
  · refine congrArg Host.Outcome.next ((State.takeFrame_of_heads hheads rfl).trans ?_)
    exact State.forContext_of_live (frame := ⟨n, c.lightpathId, .light⟩) hlive' (by simp [hup, hst])
  · have hexec : exec (.lit d) s = .next ((s.removeHead d).takeLit i c) :=
      congrArg Host.Outcome.next ((State.takeFrame_of_heads hheads rfl).trans
        (State.forContext_of_live (frame := ⟨n, c.lightpathId, .lit⟩) hlive' (by simp [hdown, hst])))
    refine ⟨_, hexec, ?_⟩
    rw [State.takeLit]
    refine ⟨?_, fun j hj => ?_, fun m q hq => ?_, fun x j => ?_, ?_, ?_⟩
    · simp only [State.context, State.offerTo_contexts, State.writeRun_contexts]
      exact ((s.removeHead d).enter_context i i c .inService).trans (if_pos rfl)
    · simp only [State.context, State.offerTo_contexts, State.writeRun_contexts]
      exact ((s.removeHead d).enter_context i j c .inService).trans (if_neg (Ne.symm hj))
    · simp only [State.slotAt, State.offerTo_maps]
      exact State.writeRun_slotAt _ _ _ _ m hq
    · simp only [State.offerTo_changed, State.writeRun_changed]
      exact State.enter_changed_eq _ _ _ _ _ _
    · exact State.offerTo_links (by simp) (by simp) _ _ _
    · rw [State.offerTo_eq, State.writeRun_eq]; rfl
end

section
/-! ## The settle of a forward turn (R65, R67, R70) -/

namespace Sys2Proof.Machine

/-- A judgement within the window is a settle (R49). -/
theorem judge_settle {a : Atten} {w : Nat} {d : Int} (h : d.natAbs ≤ w) : judge a w d = .settle :=
  if_pos ((State.inWindow_iff w d).2 h)

/-- Giving up the count leaves the guard as it stood (R50, R65). -/
theorem guardKept_stopCounting {s : State} {p : PointIx} {i : CtxIx} (h : GuardKept s p i) :
    GuardKept (s.stopCounting p) p i := by
  intro j x m r hj hx hp hc hm hr hf
  have hg : ((s.stopCounting p).point p).guardTol = (s.point p).guardTol := by
    rw [State.stopCounting, State.modPoint_point_self]
  rw [hg]
  exact h j x m r hj hx hp hc hm hr hf

/-- A forward measurement with the guard kept and the power within the window settles the context (R49, R67, R70). -/
theorem measureForward_settle {s : State} {p : PointIx} {i : CtxIx} {c : Context} {m : Measured} (n : Nat)
    (hg : GuardKept s p i) (hm : c.lastMeasured = some m) (hw : (c.target - m.power).natAbs ≤ c.window) :
    s.measureForward p i c n = (s.settleTurn p i c).grant p := by
  have hguard : s.guardViolated p i = false := by
    rw [← Bool.not_eq_true, State.guardViolated_iff, not_not]; exact hg
  unfold State.measureForward
  rw [hguard, hm]
  simp only [judge_settle hw, Bool.false_eq_true, if_false]

/-- The counting of a sweep while the holder ramps and settles (R65). -/
theorem countSweep_settling {s : State} {p : PointIx} {i : CtxIx} {c : Context} {b k : Nat}
    (hh : (s.point p).holder = some i) (hc : s.context i = some c) (hst : c.state = .ramping .settling b)
    (hk : (s.point p).settle = k + 1) :
    s.countSweep p = if k = 0 then (s.stopCounting p).measureForward p i c b else s.armSettle p k := by
  unfold State.countSweep
  simp only [hh, hc, hk, hst]

/-! ## The outcome of an outstanding setting (R144, R146) -/

/-- The point of an entry whose tag no other entry holds (R144). -/
theorem tagPoint_of_unique {s : State} {p : PointIx} {e : Outstanding} (he : s.outstanding[p] = some e)
    (hu : ∀ q : PointIx, ∀ x ∈ s.outstanding[q], x.tag = e.tag → q = p) : s.tagPoint e.tag = some p := by
  cases hf : s.tagPoint e.tag with
  | none =>
    have := List.find?_eq_none.1 hf p (List.mem_finRange p)
    simp [he] at this
  | some q =>
    have hany := List.find?_some (p := fun q : PointIx => (s.outstanding[q]).any fun x : Outstanding => x.tag == e.tag) hf
    obtain ⟨x, hx, ht⟩ := (Option.any_eq_true _ _).1 hany
    rw [hu q x hx (by simpa using ht)]

/-- Where no waiting setting carries the tag, none is withdrawn (R146). -/
theorem withdraw_of_absent {t : Byte} {l : List Setting} (h : ∀ m ∈ l, m.tag ≠ t) : withdraw t l = l := by
  rw [withdraw, List.eraseP_of_forall_not (by simpa using h), List.reverse_reverse]

/-- The last waiting setting with the tag is the one withdrawn (R146). -/
theorem withdraw_of_last {t : Byte} {a b : List Setting} {m : Setting} (hm : m.tag = t) (hb : ∀ x ∈ b, x.tag ≠ t) :
    withdraw t (a ++ m :: b) = a ++ b := by
  have hrev : (a ++ m :: b).reverse = b.reverse ++ m :: a.reverse := by simp
  rw [withdraw, hrev, List.eraseP_append_right _ (by simpa using hb), List.eraseP_cons_of_pos (by simp [hm])]
  simp

/-- The event of a delivery delivers its outcome to the point (R144, R146). -/
theorem exec_of_delivers {s u : State} {p : PointIx} {event : Instr} {o : SettingOutcome} (h : Delivers s p event o u) :
    exec event s = .next (u.deliver p o) := by
  obtain ⟨e, he, ⟨hevent, hu, rfl⟩ | ⟨rfl, rfl, ht, w, rfl, hw⟩⟩ := h
  · have hp := tagPoint_of_unique he hu
    rcases hevent with ⟨rfl, rfl⟩ | ⟨rfl, rfl⟩
    · change Host.Outcome.next _ = _
      simp only [resultOf, hp]; rfl
    · change Host.Outcome.next _ = _
      simp only [resultOf, hp]; rfl
  · have hwithdraw : withdraw e.tag s.toSend = w := by
      rcases hw with ⟨hnone, rfl⟩ | ⟨a, m, b, hs, hm, hb, rfl⟩
      · exact withdraw_of_absent hnone
      · rw [hs, withdraw_of_last hm hb]
    change execActuatorTimerExpiry p s = _
    unfold execActuatorTimerExpiry
    simp only [he, ht, if_true, hwithdraw]
    rfl

/-- A delivery changes neither a point, a record nor a map before its outcome acts. -/
theorem Delivers.eq {s u : State} {p : PointIx} {event : Instr} {o : SettingOutcome} (h : Delivers s p event o u) :
    u = { s with outstanding := u.outstanding, toSend := u.toSend } := by
  obtain ⟨e, he, ⟨-, -, rfl⟩ | ⟨-, -, -, w, rfl, -⟩⟩ := h <;> rfl

/-- The outcome of a BLOCK that ends a darkening (R82, R86): dark with OK, unconfirmed otherwise. -/
theorem deliver_block {s : State} {p : PointIx} {o : SettingOutcome} {i : CtxIx} {c : Context} (h : HolderAt s p i c)
    (hst : c.state = .retiring .hard .actuating ∨
      o = .ok ∧ c.state = .retiring .gradual .actuating ∧ c.attenuation = .block) :
    s.deliver p o = if o = .ok then s.dark p i c else s.darkUnconfirmed p i c := by
  obtain ⟨hh, hserv, hc⟩ := h
  unfold State.deliver
  split
  next r hr => exact absurd hr (hserv r)
  · rw [hh]
    dsimp only
    rw [hc]
    rcases hst with hst | ⟨rfl, hst, hb⟩
    · simp only [hst]; cases o <;> rfl
    · simp only [hst, State.gradualOutcome, hb]; rfl

/-! ## The end of a darkening (R87, R88) -/

/-- What an end of a darkening leaves before the admission attempt: the charge and the lock given up, the run rewritten, the record
ENDED, and a TEARDOWN of a completed head. -/
def State.darkened (s : State) (p : PointIx) (i : CtxIx) (c : Context) (x : Slot) (alerts : Alerts) (e : Ending)
    (completed : Bool) : State :=
  ({ ((s.discharge c).releaseLock p).writeRun c.sides.mapsUsed c.run x with alerts := alerts }.endRecord i c e).teardownAtDark
    c completed

section
variable {s : State} {p : PointIx} {i : CtxIx} {c : Context} {e : Ending}

theorem dark_eq (h : c.ending = some e) :
    s.dark p i c = (s.darkened p i c .free s.alerts e (e.cause == .completed)).attempt p := by
  have ha : (((s.discharge c).releaseLock p).writeRun c.sides.mapsUsed c.run .free).alerts = s.alerts := by
    simp [State.releaseLock]
  rw [State.dark, h, State.darkened, ← ha]

theorem darkUnconfirmed_eq (h : c.ending = some e) : s.darkUnconfirmed p i c =
    (s.darkened p i c .barred { s.alerts with darkUnconfirmed := true } { e with cause := .darkUnconfirmed }
      (e.origin == .completed)).attempt p := by
  have ha : (((s.discharge c).releaseLock p).writeRun c.sides.mapsUsed c.run .barred).alerts = s.alerts := by
    simp [State.releaseLock]
  rw [State.darkUnconfirmed, h, State.darkened, ← ha]; rfl

/-- A completed head sends TEARDOWN (R87, step 5; R88, step 7). -/
theorem teardownAtDark_head (s : State) {c : Context} {add : Fin 16} {d : Degree} {b : Bool} (h : c.sides = .head add d)
    (hb : b = true) : s.teardownAtDark c b = s.offer d c.lightpathId .teardown := by
  subst hb
  simp only [State.teardownAtDark, h]

/-- No frame leaves at the end of a darkening but the TEARDOWN of a completed head (R87, R88). -/
theorem teardownAtDark_links_of_none (s : State) {c : Context} (cause : Cause) (h : c.sides.role ≠ .head ∨ cause ≠ .completed) :
    (s.teardownAtDark c (cause == .completed)).links = s.links := by
  unfold State.teardownAtDark
  split
  next hs hc =>
    rcases h with h | h
    · exact absurd (by rw [hs]; rfl) h
    · exact absurd (by simpa using hc) h
  · rfl

theorem teardownAtDark_eq (s : State) (c : Context) (b : Bool) :
    s.teardownAtDark c b = { s with links := (s.teardownAtDark c b).links } := by
  unfold State.teardownAtDark; split <;> rfl

variable (s p i c e) (x : Slot) (al : Alerts) (b : Bool)

/-- An end of a darkening in its parts: each field by itself. -/
theorem darkened_eq : s.darkened p i c x al e b = { s with
    contexts := (s.darkened p i c x al e b).contexts
    endedList := s.endedList ++ [i]
    points := (s.darkened p i c x al e b).points
    maps := (s.writeRun c.sides.mapsUsed c.run x).maps
    alerts := al
    changed := (s.enter i c .ended).changed
    links := (s.darkened p i c x al e b).links } := by
  have hmaps : (((s.discharge c).releaseLock p).writeRun c.sides.mapsUsed c.run x).maps =
      (s.writeRun c.sides.mapsUsed c.run x).maps := State.writeRun_maps_congr (by simp [State.releaseLock]) _ _ _
  unfold State.darkened
  rw [teardownAtDark_eq, ← hmaps, State.writeRun_eq, State.discharge_eq]
  rfl

theorem darkened_context (j : CtxIx) : (s.darkened p i c x al e b).context j = if i = j then some { c with
    charge := none, lastMeasured := none, reference := none, abortPending := none, ending := some e
    state := .ended, watchTimer := none } else s.context j := by
  unfold State.darkened
  rw [teardownAtDark_eq]
  refine (State.endRecord_context _ i j c e).trans ?_
  simp [State.context, State.releaseLock]

theorem darkened_point (hp : c.point = p) (j : PointIx) : (s.darkened p i c x al e b).point j =
    if p = j then { s.point p with load := (s.point p).load - c.charge.getD 0, holder := none } else s.point j := by
  have hpoints : (s.darkened p i c x al e b).point j = ((s.discharge c).releaseLock p).point j := by
    unfold State.darkened
    rw [teardownAtDark_eq]
    simp [State.point]
  rw [hpoints, State.releaseLock, State.modPoint_point, State.discharge_point, State.discharge_point, if_pos hp, hp]
  split <;> rfl

theorem darkened_links : (s.darkened p i c x al e b).links = (s.teardownAtDark c b).links := by
  unfold State.darkened State.teardownAtDark
  split
  · exact State.offerTo_links (d := some _) (by simp [State.releaseLock]) (by simp [State.releaseLock]) _ _
  · simp [State.releaseLock]

end

end Sys2Proof.Machine

open Sys2Proof Sys2Proof.Machine

/-- Settles O42: the count falls, or the last sweep is the measurement, which settles. -/
theorem forwardSettleCountsSweeps : Obligations.ForwardSettleCountsSweeps := by
  intro s p i c b k hh hc hst hk
  have hcount := countSweep_settling hh hc hst hk
  refine ⟨fun hpos => ?_, fun hzero hg m hm hw => ?_⟩
  · rw [hcount, if_neg (by omega)]; rfl
  · rw [hcount, if_pos hzero, measureForward_settle b (guardKept_stopCounting hg) hm hw]
    exact ⟨_, rfl, State.settleTurn_settles _ hm⟩

/-- Settles O45: the outcome is delivered, and both ends of a darkening are one operation with the slot, the alerts and the cause as its
parameters. -/
theorem hardBlockOutcomeEndsTheDarkening : Obligations.HardBlockOutcomeEndsTheDarkening := by
  intro s w p event o i c e q hdel hat hp hst he hq
  have hw := hdel.eq
  have hctx (j : CtxIx) : w.context j = s.context j := by rw [hw]; rfl
  have hpoint (j : PointIx) : w.point j = s.point j := by rw [hw]; rfl
  have halerts : w.alerts = s.alerts := by rw [hw]
  have hat' : HolderAt w p i c :=
    ⟨by rw [hpoint]; exact hat.holder, by rw [hpoint]; exact hat.noService, by rw [hctx]; exact hat.record⟩
  refine ⟨w.darkened p i c (if o = .ok then .free else .barred)
    (if o = .ok then s.alerts else { s.alerts with darkUnconfirmed := true })
    (if o = .ok then e else { e with cause := .darkUnconfirmed })
    ((if o = .ok then e.cause else e.origin) == .completed), ?_, ?_, fun j hj => ?_, ?_, ?_, fun j hj => ?_,
    fun m k hk => ?_, ?_, fun j k => ?_, fun add d hs hcause => ?_, fun hno => ?_, ?_⟩
  · rw [exec_of_delivers hdel, deliver_block hat' hst, ← halerts]
    by_cases ho : o = .ok
    · simp only [if_pos ho, dark_eq he]
    · simp only [if_neg ho, darkUnconfirmed_eq he]
  · rw [darkened_context, if_pos rfl]
  · rw [darkened_context, if_neg (Ne.symm hj), hctx]
  · rw [darkened_eq, hw]
  · rw [darkened_point _ _ _ _ _ _ _ _ hp, if_pos rfl, hpoint, hq]; rfl
  · rw [darkened_point _ _ _ _ _ _ _ _ hp, if_neg (Ne.symm hj), hpoint]
  · have hslot : w.slotAt m k = s.slotAt m k := by rw [hw]; rfl
    rw [← hslot, ← State.writeRun_slotAt w _ _ _ m hk, State.slotAt, darkened_eq]; rfl
  · rw [darkened_eq]
  · have hchanged : (w.changed[j])[k] = (s.changed[j])[k] := by rw [hw]
    rw [darkened_eq, ← hchanged]
    exact w.enter_changed_eq i k c .ended j
  · rw [darkened_links, teardownAtDark_head _ hs (by rw [hcause]; rfl)]
    exact State.offerTo_links (d := some d) (by rw [hw]) (by rw [hw]) _ _
  · have hlinks : w.links = s.links := by rw [hw]
    rw [darkened_links, ← hlinks]
    exact teardownAtDark_links_of_none _ _ hno
  · rw [darkened_eq]
end

section
/-! ## Changes beside the engines (R124, R149 to R153): what links and the shelf bus keep of their own rules -/

namespace Sys2Proof.Machine

/-! ### Link units (R124 to R134) -/

namespace Link

variable {l : Link}

theorem wellFormed_offer (h : l.wellFormed) (f : Frame) : (l.offer f).wellFormed := by
  obtain ⟨hrx, htx, h1, h2, h3, h4, h5, n1, n2, n3, n4, n5⟩ := h
  unfold Link.offer
  split
  next hup =>
    obtain ⟨hup, hlt⟩ := hup
    exact ⟨hrx, by simp; omega, h1, by simp [hup], by simp [hup], h4, h5, n1, n2, n3, n4, n5⟩
  · exact ⟨hrx, htx, h1, h2, h3, h4, h5, n1, n2, n3, n4, countUp_le _ n5⟩

theorem wellFormed_removeHead (h : l.wellFormed) : ({ l with rx := l.rx.tail } : Link).wellFormed := by
  obtain ⟨hrx, htx, h1, h2, h3, h4, h5, hn⟩ := h
  exact ⟨by simp; omega, htx, fun hs => by simp [h1 hs], h2, h3, h4, h5, hn⟩

/-- Counts that stay within 65535 leave a link as R124 says. -/
theorem wellFormed_counts (h : l.wellFormed) {overrun : Bool} {a b c d e : Nat} (ha : a ≤ 65535) (hb : b ≤ 65535)
    (hc : c ≤ 65535) (hd : d ≤ 65535) (he : e ≤ 65535) :
    ({ l with overrun := overrun, rxErrors := a, overruns := b, malformed := c, stray := d, txDrops := e } : Link).wellFormed := by
  obtain ⟨hrx, htx, h1, h2, h3, h4, h5, -⟩ := h
  exact ⟨hrx, htx, h1, h2, h3, h4, h5, ha, hb, hc, hd, he⟩

theorem wellFormed_rxError (h : l.wellFormed) : ({ l with rxErrors := countUp l.rxErrors } : Link).wellFormed := by
  have ⟨_, _, _, _, _, _, _, n1, n2, n3, n4, n5⟩ := h
  exact wellFormed_counts h (countUp_le _ n1) n2 n3 n4 n5

theorem wellFormed_overrun (h : l.wellFormed) :
    ({ l with overrun := true, overruns := countUp l.overruns } : Link).wellFormed := by
  have ⟨_, _, _, _, _, _, _, n1, n2, n3, n4, n5⟩ := h
  exact wellFormed_counts h n1 (countUp_le _ n2) n3 n4 n5

theorem wellFormed_malformed (h : l.wellFormed) : ({ l with malformed := countUp l.malformed } : Link).wellFormed := by
  have ⟨_, _, _, _, _, _, _, n1, n2, n3, n4, n5⟩ := h
  exact wellFormed_counts h n1 n2 (countUp_le _ n3) n4 n5

theorem wellFormed_stray (h : l.wellFormed) : ({ l with stray := countUp l.stray } : Link).wellFormed := by
  have ⟨_, _, _, _, _, _, _, n1, n2, n3, n4, n5⟩ := h
  exact wellFormed_counts h n1 n2 n3 (countUp_le _ n4) n5

theorem wellFormed_clearCounts (h : l.wellFormed) : l.clearCounts.wellFormed := by
  exact wellFormed_counts h (by omega) (by omega) (by omega) (by omega) (by omega)

theorem wellFormed_receive (h : l.wellFormed) (hs : l.state.receives = true) (hlt : l.rx.length < 4) (f : RxFrame) :
    ({ l with rx := l.rx ++ [f] } : Link).wellFormed := by
  obtain ⟨-, htx, -, h2, h3, h4, h5, hn⟩ := h
  refine ⟨by simp; omega, htx, fun hx => ?_, h2, h3, h4, h5, hn⟩
  rcases hx with hx | hx <;> rw [show l.state = _ from hx] at hs <;> cases hs

theorem wellFormed_depart (h : l.wellFormed) (hs : l.state.sends = true) : l.depart.wellFormed := by
  obtain ⟨hrx, htx, h1, -, -, h4, h5, hn⟩ := h
  have hlen : l.tx.tail.length ≤ 8 := by simp; omega
  unfold Link.depart
  cases hst : l.state with
  | up =>
    have hc := h4 (.inl hst)
    exact ⟨hrx, hlen, by simp, by simp, by simp, fun _ => hc, by simp, hn⟩
  | draining =>
    have hc := h4 (.inr hst)
    have hrx0 := h1 (.inr hst)
    refine ⟨hrx, hlen, fun _ => hrx0, ?_, ?_, fun _ => hc, ?_, hn⟩
    all_goals by_cases he : l.tx.tail = [] <;> simp [he]
  | down => rw [hst] at hs; cases hs
  | disabled => rw [hst] at hs; cases hs

theorem wellFormed_enable (h : l.wellFormed) : l.enable.wellFormed := by
  have ⟨hrx, htx, h1, h2, h3, h4, h5, hn⟩ := h
  unfold Link.enable
  split
  next hst =>
    have hrx0 := h1 (.inl hst)
    have htx0 := h2 (.inr hst)
    cases hc : l.carrier <;> simp [Link.wellFormed, hrx0, htx0] <;> exact hn
  all_goals exact h

theorem wellFormed_disable (h : l.wellFormed) : l.disable.wellFormed := by
  have ⟨hrx, htx, h1, h2, h3, h4, h5, hn⟩ := h
  unfold Link.disable
  split
  next hst =>
    have htx0 := h2 (.inl hst)
    simp only [Link.wellFormed, htx0]
    exact ⟨by simp, by simp, by simp, by simp, by simp, by simp, by simp, hn⟩
  next hst =>
    have hc := h4 (.inl hst)
    refine ⟨by simp, htx, by simp, ?_, ?_, fun _ => hc, ?_, hn⟩
    all_goals cases ht : l.tx <;> simp
  all_goals exact h

theorem wellFormed_arrive (h : l.wellFormed) : l.arrive.wellFormed := by
  have ⟨hrx, htx, h1, h2, h3, h4, h5, hn⟩ := h
  unfold Link.arrive
  split
  next hst =>
    have htx0 := h2 (.inl hst)
    exact ⟨hrx, htx, by simp, by simp, by simp, by simp, by simp, hn⟩
  all_goals
    next hst => exact ⟨hrx, htx, h1, h2, h3, fun _ => rfl, by simp [hst], hn⟩

theorem wellFormed_lose (h : l.wellFormed) : l.lose.wellFormed := by
  have ⟨hrx, htx, h1, h2, h3, h4, h5, n1, n2, n3, n4, n5⟩ := h
  have hn := countUpBy_le l.tx.length l.txDrops n5
  unfold Link.lose Link.dropAll
  split
  · exact ⟨hrx, by simp, by simp, by simp, by simp, by simp, by simp, n1, n2, n3, n4, hn⟩
  next hst =>
    have hrx0 := h1 (.inr hst)
    exact ⟨hrx, by simp, fun _ => hrx0, by simp, by simp, by simp, by simp, n1, n2, n3, n4, hn⟩
  all_goals
    next hst => exact ⟨hrx, htx, h1, h2, h3, by simp [hst], by simp, n1, n2, n3, n4, n5⟩

end Link

/-! ### The shelf bus (R149 to R153) -/

namespace BusConsistent

variable {s t : State}

theorem congr (h : BusConsistent s) (hi : t.intakes = s.intakes) (hb : t.bus = s.bus) : BusConsistent t := by
  unfold BusConsistent; rw [hi, hb]; exact h

/-- Outside a WRITE no intake is FILLING, and any transaction but a hold may begin. -/
theorem setBus (h : BusConsistent s) (hw : ∀ st, s.bus ≠ .write st) {b : Bus} (hb : ∀ st x e, b ≠ .held st x e) :
    BusConsistent { s with bus := b } := by
  intro st
  obtain ⟨hfit, hfill, -⟩ := h st
  exact ⟨hfit, fun c hc => absurd (hfill c hc) (hw st), fun x e hx => absurd hx (hb st x e)⟩

/-- A station's intake is written, and the transaction with it. -/
theorem setIntake (h : BusConsistent s) {st : Station} {x : Intake} {b : Bus} (hfit : x.fits = true)
    (hown : ∀ c, x = .filling c → b = .write st) (hother : ∀ o, o ≠ st → s.bus ≠ .write o)
    (hb : ∀ o y e, b ≠ .held o y e) : BusConsistent { s.setIntake st x with bus := b } := by
  intro o
  have hget : ({ s.setIntake st x with bus := b } : State).intakes[o] = if st = o then x else s.intakes[o] := by
    simp only [State.setIntake, Fin.getElem_fin, put_get]
  rw [hget]
  obtain ⟨hfits, hfill, -⟩ := h o
  by_cases e : st = o
  · subst e
    rw [if_pos rfl]
    exact ⟨hfit, hown, fun y f hy => absurd hy (hb st y f)⟩
  · rw [if_neg e]
    exact ⟨hfits, fun c hc => absurd (hfill c hc) (hother o (Ne.symm e)), fun y f hy => absurd hy (hb o y f)⟩

theorem endTransaction_bus (s : State) : s.endTransaction.bus = .idle := by
  unfold State.endTransaction
  dsimp only
  split
  · split <;> rfl
  all_goals rfl

theorem endTransaction (h : BusConsistent s) : BusConsistent s.endTransaction := by
  unfold State.endTransaction
  dsimp only
  cases hb : s.bus with
  | write st =>
    obtain ⟨hfit, -, -⟩ := h st
    have hother (o : Station) (ho : o ≠ st) : s.bus ≠ .write o := by rw [hb]; simpa using Ne.symm ho
    have idle (hempty : ∀ c, s.intakes[st] ≠ .filling c) : BusConsistent { s with bus := .idle } := by
      intro o
      obtain ⟨hfits, hfill, -⟩ := h o
      refine ⟨hfits, fun c hc => ?_, nofun⟩
      by_cases e : o = st
      · subst e; exact absurd hc (hempty c)
      · exact absurd (hfill c hc) (hother o e)
    dsimp only
    split
    next c hc => exact h.setIntake (b := .idle) (by rw [hc] at hfit; exact hfit) nofun hother nofun
    next hc => exact idle (by simp [hc])
    next hc => exact idle (by simp [hc])
  | idle => exact h.setBus (by simp [hb]) nofun
  | discarding => exact h.setBus (by simp [hb]) nofun
  | held _ _ _ => exact h.setBus (by simp [hb]) nofun
  | read _ _ => exact h.setBus (by simp [hb]) nofun

theorem startTransaction (h : BusConsistent s) (b : BusStart) : BusConsistent (s.startTransaction b) := by
  have he := h.endTransaction
  have hw (st : Station) : s.endTransaction.bus ≠ .write st := by rw [endTransaction_bus]; nofun
  have set {x : Bus} (hx : ∀ st y e, x ≠ .held st y e) : BusConsistent { s.endTransaction with bus := x } := he.setBus hw hx
  unfold State.startTransaction
  dsimp only
  split
  · exact he
  · split
    · exact set nofun
    · split
      · exact set nofun
      · split
        · exact set nofun
        · split
          · exact (set (x := .read _ _) nofun).congr rfl rfl
          · split
            · exact he.congr rfl rfl
            · exact set nofun

theorem openTransaction (h : BusConsistent s) (b : Option BusStart) : BusConsistent (s.openTransaction b) := by
  cases b with
  | none => exact h
  | some b => exact h.startTransaction b

theorem fits_store {c : Command} (h : c.rest.length ≤ 63) (b : Byte) : (c.store b).rest.length ≤ 63 := by
  unfold Command.store
  split
  · simp; omega
  · exact h

theorem writeByte (h : BusConsistent s) {st : Station} (hb : s.bus = .write st) (b : Byte) (e : Bool) :
    BusConsistent (s.writeByte st b e) := by
  have hother (o : Station) (ho : o ≠ st) : s.bus ≠ .write o := by rw [hb]; simpa using Ne.symm ho
  have stored {c : Command} (hc : c.rest.length ≤ 63) :
      BusConsistent { s.setIntake st (intakeWith c e) with bus := if e then .idle else .write st } := by
    refine h.setIntake ?_ ?_ hother ?_ <;> cases e <;> simp [intakeWith, Intake.fits, hc]
  obtain ⟨hfit, -, -⟩ := h st
  unfold State.writeByte
  dsimp only
  split
  · exact stored (c := Command.start b) (Nat.zero_le _)
  next c hc =>
    refine stored (fits_store ?_ b)
    rw [hc] at hfit
    simpa [Intake.fits] using hfit
  next c hc =>
    intro o
    obtain ⟨hfits, hfill, -⟩ := h o
    refine ⟨hfits, fun c' hc' => ?_, fun x f hx => ?_⟩
    · have ho := hfill c' hc'
      by_cases eo : o = st
      · subst eo; exact absurd (hc.symm.trans hc') (by simp)
      · exact absurd ho (hother o eo)
    · cases hx; exact ⟨c, hc⟩

theorem writeBytes (h : BusConsistent s) (l : List Byte) (e : Bool) : BusConsistent (State.writeBytes l e s) := by
  induction l generalizing s with
  | nil => exact h
  | cons b rest ih =>
    unfold State.writeBytes
    split
    next hb => exact ih (h.writeByte hb _ _)
    next hb =>
      split
      · exact h.setBus (by simp [hb]) nofun
      · exact ih h
    · exact h

theorem readBytes (h : BusConsistent s) (n : Nat) : BusConsistent (State.readBytes n s) := by
  induction n generalizing s with
  | zero => exact h
  | succ n ih =>
    unfold State.readBytes
    split
    next hb => exact h.setBus (by simp [hb]) nofun
    next hb => exact (h.setBus (b := .idle) (by simp [hb]) nofun).congr rfl rfl
    next hb => exact ih ((h.setBus (b := .read _ _) (by simp [hb]) nofun).congr rfl rfl)
    · exact h

/-- The taking of an intake empties it, or stores the byte that was held before it (R151, R152). -/
theorem taken (h : BusConsistent s) (st : Station) : BusConsistent (s.taken st) := by
  by_cases hheld : ∃ x e, s.bus = .held st x e
  · obtain ⟨x, e, hb⟩ := hheld
    rw [taken_of_held hb]
    have hset : BusConsistent { s.setIntake st (if e then .full ⟨x, [], false, false⟩ else .filling ⟨x, [], false, false⟩) with
        bus := if e then .idle else .write st } := by
      refine h.setIntake ?_ ?_ (by simp [hb]) ?_ <;> cases e <;> simp [Intake.fits]
    exact hset.congr rfl rfl
  · rw [taken_of_not_held (fun x e hx => hheld ⟨x, e, hx⟩)]
    intro o
    have hget : ({ s with intakes := put s.intakes st .empty, lastServed := st } : State).intakes[o] =
        if st = o then .empty else s.intakes[o] := by
      simp only [Fin.getElem_fin, put_get]
    rw [hget]
    obtain ⟨hfits, hfill, hhold⟩ := h o
    by_cases eo : st = o
    · subst eo
      rw [if_pos rfl]
      exact ⟨rfl, nofun, fun x e hx => absurd ⟨x, e, hx⟩ hheld⟩
    · rw [if_neg eo]
      exact ⟨hfits, hfill, hhold⟩

theorem busClear (s : State) : BusConsistent s.busClear := by
  intro st
  have : s.busClear.intakes[st] = .empty := by simp [State.busClear]
  rw [this]
  exact ⟨rfl, nofun, nofun⟩

end BusConsistent
end Sys2Proof.Machine
end

section
/-! ## Quiet changes: what no invariant of the engines reads -/

namespace Sys2Proof.Machine

/-! ### Records by their rules (R20, R21, R34) -/

/-- What R20 and R21 ask of a record in a state, its watch timer aside. -/
structure Context.Suits (c : Context) (st : CtxState) : Prop where
  chain : journalChain .block c.journal c.attenuation = true
  length : c.journal.length ≤ 16
  attenuation : c.attenuation.inRange = true
  baseStep : optFrom1 30 c.baseStep = true
  step : optFrom1 30 c.step = true
  windowPos : 1 ≤ c.window
  windowLe : c.window ≤ 20
  targetGe : -300 ≤ c.target
  targetLe : c.target ≤ 200
  backoffs : st.backoffs.getD 0 ≤ 3
  charge : c.charge.isSome = st.charged
  ending : c.ending.isSome = st.ending
  measured : c.lastMeasured.isSome = true → c.charge.isSome = true
  reference : c.reference.isSome = true → c.charge.isSome = true

theorem Context.wellFormed_iff {c : Context} :
    c.wellFormed ↔ c.Suits c.state ∧ c.watchTimer.isSome = c.state.watched :=
  ⟨fun ⟨a1, a2, a3, a4, a5, a6, a7, a8, a9, a10, a11, a12, w, a13, a14⟩ =>
      ⟨⟨a1, a2, a3, a4, a5, a6, a7, a8, a9, a10, a11, a12, a13, a14⟩, w⟩,
    fun ⟨⟨a1, a2, a3, a4, a5, a6, a7, a8, a9, a10, a11, a12, a13, a14⟩, w⟩ =>
      ⟨a1, a2, a3, a4, a5, a6, a7, a8, a9, a10, a11, a12, w, a13, a14⟩⟩

/-- The watch timer is loaded exactly in the states that have it armed (R34). -/
theorem watchLoad_isSome (t : Timing) (c : Context) (st : CtxState) : (watchLoad t c st).isSome = st.watched := by
  cases st <;> rfl

/-- A record entered into a state that it suits is as its rules say. -/
theorem Context.Suits.enter {c : Context} {st : CtxState} (h : c.Suits st) (t : Timing) :
    ({ c with state := st, watchTimer := watchLoad t c st } : Context).wellFormed :=
  Context.wellFormed_iff.2 ⟨{ h with }, watchLoad_isSome t c st⟩

/-- A record changes in nothing that the table, the points or the changed sets read of it. -/
structure Context.Alike (c d : Context) : Prop where
  state : d.state = c.state
  sides : d.sides = c.sides
  abortPending : d.abortPending = c.abortPending
  lightpathId : d.lightpathId = c.lightpathId
  owner : d.owner = c.owner
  wellFormed : c.wellFormed → d.wellFormed

theorem Context.Alike.refl (c : Context) : c.Alike c := ⟨rfl, rfl, rfl, rfl, rfl, id⟩

theorem Context.refresh_alike (p : PointIx) (c : Context) : c.Alike (c.refresh p) := by
  unfold Context.refresh
  split
  next hr =>
    refine ⟨rfl, rfl, rfl, rfl, rfl, fun h => ?_⟩
    obtain ⟨hs, hw⟩ := Context.wellFormed_iff.1 h
    simp only [Context.refreshable, Bool.and_eq_true] at hr
    obtain ⟨⟨-, hcharge⟩, -⟩ := hr
    exact Context.wellFormed_iff.2 ⟨{ hs with reference := fun _ => hcharge }, hw⟩
  · exact .refl c

theorem Context.measure_alike (p : PointIx) (readings : List Word16) (c : Context) : c.Alike (c.measure p readings) := by
  unfold Context.measure
  split
  next hr =>
    refine ⟨rfl, rfl, rfl, rfl, rfl, fun h => ?_⟩
    obtain ⟨hs, hw⟩ := Context.wellFormed_iff.1 h
    simp only [Bool.and_eq_true] at hr
    obtain ⟨-, hcharge⟩ := hr
    exact Context.wellFormed_iff.2 ⟨{ hs with measured := fun _ => hcharge, reference := fun _ => hcharge }, hw⟩
  · exact .refl c

theorem Context.countDown_alike (c : Context) : c.Alike c.countDown := by
  refine ⟨rfl, rfl, rfl, rfl, rfl, fun h => ?_⟩
  obtain ⟨hs, hw⟩ := Context.wellFormed_iff.1 h
  exact Context.wellFormed_iff.2 ⟨{ hs with }, by
    simpa only [Context.countDown, Machine.countDown, Option.isSome_map] using hw⟩

/-! ### Points by their ranges (R52) -/

/-- The limit, the density and the guard of a point are within their ranges (R52). -/
def Point.inRange (p : Point) : Prop :=
  (-400 ≤ p.limit ∧ p.limit ≤ 250) ∧ (-300 ≤ p.density ∧ p.density ≤ 100) ∧ (1 ≤ p.guardTol ∧ p.guardTol ≤ 30)

theorem configurationLegal_iff {s : State} : ConfigurationLegal s ↔
    s.timing.inRange ∧ (∀ p, (s.point p).inRange) ∧ s.lockout[(0 : Station)] = false ∧ (s.nodeOpen = true → s.nodeId ≠ 0) :=
  Iff.rfl

/-- A point engine changes in nothing that its line, its queue, its holder or its turn is read from. -/
structure Point.Alike (a b : Point) : Prop where
  line : b.line = a.line
  queue : b.queue = a.queue
  holder : b.holder = a.holder
  active : b.service.isActive = a.service.isActive
  settle : b.settle = a.settle
  armed : b.sweepTimer.isSome = a.sweepTimer.isSome

theorem Point.Alike.refl (a : Point) : a.Alike a := ⟨rfl, rfl, rfl, rfl, rfl, rfl⟩

/-! ### Quiet changes -/

/-- A change beside the engines: records, points and outstanding tags stand as they were, no notice is added, and the links, the
configuration and the shelf bus stay as their rules say. -/
structure Quiet (s t : State) : Prop where
  contexts : ∀ i, Option.Rel Context.Alike (s.context i) (t.context i)
  endedList : t.endedList = s.endedList
  changed : ∀ (st : Station) (i : CtxIx), (t.changed[st])[i] = true → (s.changed[st])[i] = true
  points : ∀ p, (s.point p).Alike (t.point p)
  outstanding : ∀ p : PointIx, t.outstanding[p].map Outstanding.tag = s.outstanding[p].map Outstanding.tag
  links : LinksWellFormed s → LinksWellFormed t
  configuration : ConfigurationLegal s → ConfigurationLegal t
  bus : BusConsistent s → BusConsistent t

namespace Quiet

variable {s t u : State}

theorem refl (s : State) : Quiet s s where
  contexts i := by
    cases s.context i with
    | none => exact .none
    | some c => exact .some (.refl c)
  endedList := rfl
  changed _ _ := id
  points _ := .refl _
  outstanding _ := rfl
  links := id
  configuration := id
  bus := id

/-! #### Links and counts -/

theorem modLink {d : Degree} {f : Link → Link} (h : (s.link d).wellFormed → (f (s.link d)).wellFormed) :
    Quiet s (s.modLink d f) := by
  refine { refl s with links := fun ⟨hlinks, hcounts⟩ => ⟨fun e => ?_, hcounts⟩ }
  rw [State.modLink_link]
  split
  · exact h (hlinks d)
  · exact hlinks e

theorem removeHead (s : State) (d : Degree) : Quiet s (s.removeHead d) := modLink Link.wellFormed_removeHead

theorem countMalformed (s : State) (d : Degree) : Quiet s (s.countMalformed d) := modLink Link.wellFormed_malformed

theorem countStray (s : State) (d : Degree) : Quiet s (s.countStray d) := modLink Link.wellFormed_stray

theorem offer (s : State) (d : Degree) (n : Word32) (b : FrameBody) : Quiet s (s.offer d n b) :=
  modLink fun h => Link.wellFormed_offer h _

theorem offerTo (s : State) (d : Option Degree) (n : Word32) (b : FrameBody) : Quiet s (s.offerTo d n b) := by
  cases d with
  | none => exact refl s
  | some d => exact offer s d n b

theorem carrierLoss (s : State) (d : Degree) : Quiet s (s.carrierLoss d) := by
  have h : Quiet s (s.modLink d Link.lose) := modLink Link.wellFormed_lose
  unfold State.carrierLoss
  split
  · exact { h with }
  · exact h

theorem receive (s : State) (d : Degree) (f : RxFrame) : Quiet s (s.receive d f) := by
  unfold State.receive
  split
  next hs =>
    split
    next hlt => exact modLink fun h => Link.wellFormed_receive h hs hlt f
    · have h : Quiet s (s.modLink d fun l => { l with overrun := true, overruns := countUp l.overruns }) :=
        modLink Link.wellFormed_overrun
      exact { h with }
  · exact refl s

theorem depart (s : State) (d : Degree) : Quiet s (s.depart d) := by
  unfold State.depart
  split
  · split
    next hs => exact { modLink (s := s) (d := d) fun h => Link.wellFormed_depart h hs with }
    · exact refl s
  · exact refl s

theorem discardSweep (s : State) : Quiet s s.discardSweep :=
  { refl s with links := fun ⟨h, hd, hu⟩ => ⟨h, countUp_le _ hd, hu⟩ }

theorem unmatched (s : State) : Quiet s s.unmatched :=
  { refl s with links := fun ⟨h, hd, hu⟩ => ⟨h, hd, countUp_le _ hu⟩ }

/-! #### Maps, holders, records and points -/

theorem writeRun (s : State) (ms : List MapIx) (r : Run) (x : Slot) : Quiet s (s.writeRun ms r x) := by
  rw [State.writeRun_eq]; exact { refl s with }

theorem taken (s : State) (st : Station) : Quiet s (s.taken st) := { refl s with bus := fun h => h.taken st }

theorem setHolder (s : State) (st : Station) (x : Option (List Byte)) : Quiet s (s.setHolder st x) := { refl s with }

theorem mapContexts {f : Context → Context} (h : ∀ c : Context, c.Alike (f c)) : Quiet s (s.mapContexts f) := by
  refine { refl s with contexts := fun i => ?_ }
  rw [State.mapContexts_context]
  cases s.context i with
  | none => exact .none
  | some c => exact .some (h c)

theorem modPoint {p : PointIx} {f : Point → Point} (h : (s.point p).Alike (f (s.point p)))
    (hr : (s.point p).inRange → (f (s.point p)).inRange) : Quiet s (s.modPoint p f) := by
  refine { refl s with points := fun q => ?_, configuration := fun hs => ?_ }
  · rw [State.modPoint_point]
    split
    next e => subst e; exact h
    · exact .refl _
  · obtain ⟨ht, hp, hl, hn⟩ := configurationLegal_iff.1 hs
    refine configurationLegal_iff.2 ⟨ht, fun q => ?_, hl, hn⟩
    rw [State.modPoint_point]
    split
    · exact hr (hp p)
    · exact hp q

/-- A millisecond counts timers down, and no rule reads how far they have run (R34). -/
theorem tick (s : State) : Quiet s (tick s) where
  contexts i := by
    rw [show (Machine.tick s).context i = (s.context i).map Context.countDown by
      simp [Machine.tick, State.later, State.context]]
    cases s.context i with
    | none => exact .none
    | some c => exact .some c.countDown_alike
  endedList := rfl
  changed _ _ := id
  points p := by
    rw [show (Machine.tick s).point p = (s.point p).countDown by simp [Machine.tick, State.later, State.point]]
    exact ⟨rfl, rfl, rfl, rfl, rfl, Option.isSome_map⟩
  outstanding p := by
    rw [show (Machine.tick s).outstanding[p] = s.outstanding[p].map Outstanding.countDown by
      simp [Machine.tick, State.later], Option.map_map]
    rfl
  links := id
  configuration := fun ⟨ht, hp, hl, hn⟩ => ⟨ht, fun p => by
    rw [show (Machine.tick s).point p = (s.point p).countDown by simp [Machine.tick, State.later, State.point]]
    exact hp p, hl, hn⟩
  bus := id

/-! #### The shelf bus -/

theorem endTransaction (s : State) : Quiet s s.endTransaction := by
  have h : BusConsistent s → BusConsistent s.endTransaction := BusConsistent.endTransaction
  rw [State.endTransaction_eq] at h ⊢
  exact { refl s with bus := h }

theorem startTransaction (s : State) (b : BusStart) : Quiet s (s.startTransaction b) := by
  have h : BusConsistent s → BusConsistent (s.startTransaction b) := fun h => h.startTransaction b
  rw [State.startTransaction_eq] at h ⊢
  exact { refl s with bus := h }

theorem write (s : State) (b : Option BusStart) (data : List Byte) (e : Bool) :
    Quiet s (State.writeBytes data e (s.openTransaction b)) := by
  have h : BusConsistent s → BusConsistent (State.writeBytes data e (s.openTransaction b)) :=
    fun h => (h.openTransaction b).writeBytes data e
  rw [State.writeBytes_eq, State.openTransaction_eq] at h ⊢
  exact { refl s with bus := h }

theorem read (s : State) (b : Option BusStart) (n : Nat) : Quiet s (State.readBytes n (s.openTransaction b)) := by
  have h : BusConsistent s → BusConsistent (State.readBytes n (s.openTransaction b)) :=
    fun h => (h.openTransaction b).readBytes n
  rw [State.readBytes_eq, State.openTransaction_eq] at h ⊢
  exact { refl s with bus := h }

theorem busClear (s : State) : Quiet s s.busClear := { refl s with bus := fun _ => BusConsistent.busClear s }

end Quiet
end Sys2Proof.Machine
end

section
/-! ## What a predicate has to be kept by, to be kept by every step -/

namespace Sys2Proof.Machine

/-- The first state of a record that a command or a PROBE creates (R27): it stands in no line and no queue, and holds no lock. -/
def CtxState.isFirst : CtxState → Bool
  | .probing => true
  | .reserved => true
  | .inService => true
  | _ => false

/-- A record as it is created (R27): it suits its first state, and no abort is pending. -/
structure Context.Newborn (c : Context) (st : CtxState) : Prop where
  first : st.isFirst = true
  suits : c.Suits st
  abortPending : c.abortPending = none

/-- A predicate is kept by quiet changes, by a reset, and by each operation of the engines that a command or an event begins. -/
structure Kept (P : State → Prop) : Prop where
  quiet : ∀ {s t : State}, P s → Quiet s t → P t
  reset : ∀ {strap : BitVec 3} {carriers : BitVec 8} {t : State}, AfterReset strap carriers t → P t
  create : ∀ {s : State} {i : CtxIx} {c : Context} {st : CtxState}, P s → s.chooseRecord = some i →
    NoneLive s c.lightpathId → c.Newborn st → P (s.create i c st)
  release : ∀ {s : State} {i : CtxIx} {c : Context}, P s → s.context i = some c → c.state = .ended →
    P ((s.forget i).setContext i none)
  grant : ∀ {s : State} (p : PointIx), P s → P (s.grant p)
  attempt : ∀ {s : State} (p : PointIx), P s → P (s.attempt p)
  reserve : ∀ {s : State} {i : CtxIx} {c : Context}, P s → s.context i = some c → c.state = .probing → P (s.enter i c .reserved)
  joinLine : ∀ {s : State} {i : CtxIx} {c : Context}, P s → s.context i = some c → c.state = .reserved → P (s.joinLine i c)
  serve : ∀ {s : State} {i : CtxIx} {c : Context}, P s → s.context i = some c → c.state = .passed → P (s.enter i c .inService)
  retireAtTail : ∀ {s : State} {i : CtxIx} {c : Context} (e : Ending) (m : Mode), P s → s.context i = some c →
    c.state = .inService → P (s.retireAtTail i c e m)
  endNeverLit : ∀ {s : State} {i : CtxIx} {c : Context} (e : Ending), P s → s.context i = some c → c.state = .probing →
    P (s.endNeverLit i c e)
  abortEffect : ∀ {s : State} {i : CtxIx} {c : Context} (e : Ending), P s → s.context i = some c → c.live = true →
    P (s.abortEffect i c e)
  acceptSweep : ∀ {s : State} (p : PointIx) (q : Byte) (r : List Word16), P s → P (s.acceptSweep p q r)
  deliver : ∀ {s : State} {p : PointIx} (w : List Setting) (o : SettingOutcome), P s → s.isOutstanding p = true →
    P ({ s.removeEntry p with toSend := w }.deliver p o)
  sweepExpiry : ∀ {s : State} (p : PointIx), P s → P (s.sweepExpiry p)

/-! ### Records that are created (R27) -/

theorem clampNat_mem {lo hi : Nat} (h : lo ≤ hi) (v : Nat) : lo ≤ clampNat lo hi v ∧ clampNat lo hi v ≤ hi := by
  unfold clampNat; omega

theorem clampInt_mem {lo hi : Int} (h : lo ≤ hi) (v : Int) : lo ≤ clampInt lo hi v ∧ clampInt lo hi v ≤ hi := by
  unfold clampInt; omega

theorem targetOf_mem (density : Int) (width : Nat) : -300 ≤ targetOf density width ∧ targetOf density width ≤ 200 :=
  clampInt_mem (by omega) _

theorem optFrom1_clampByte {hi : Nat} (h : 1 ≤ hi) (b : Byte) : optFrom1 hi (some (clampByte hi b)) = true := by
  simpa [optFrom1, clampByte] using clampNat_mem h b.toNat

theorem adoptedContext_newborn (s : State) (sides : Sides) (id : Word32) (run : Run) {attenuation window : Nat}
    (ha : attenuation ≤ 250) (h1 : 1 ≤ window) (h2 : window ≤ 20) :
    (adoptedContext s sides id run attenuation window).Newborn .inService where
  first := rfl
  abortPending := rfl
  suits :=
    { chain := by simp [adoptedContext, journalChain, Atten.inRange, ha]
      length := by simp [adoptedContext]
      attenuation := by simp [adoptedContext, Atten.inRange, ha]
      baseStep := rfl
      step := rfl
      windowPos := h1
      windowLe := h2
      targetGe := (targetOf_mem _ _).1
      targetLe := (targetOf_mem _ _).2
      backoffs := by simp [CtxState.backoffs]
      charge := rfl
      ending := rfl
      measured := nofun
      reference := nofun }

/-- A record that has not lit yet, as BEGIN LIGHTPATH and a PROBE create it. -/
theorem darkContext_newborn {c : Context} {st : CtxState} (hst : st = .probing ∨ st = .reserved)
    (hj : c.journal = [] ∧ c.attenuation = .block) (hb : optFrom1 30 c.baseStep = true) (hs : optFrom1 30 c.step = true)
    (hw : 1 ≤ c.window ∧ c.window ≤ 20) (ht : -300 ≤ c.target ∧ c.target ≤ 200)
    (hn : c.charge = none ∧ c.lastMeasured = none ∧ c.reference = none ∧ c.abortPending = none ∧ c.ending = none) :
    c.Newborn st := by
  obtain ⟨hj, ha⟩ := hj
  obtain ⟨h1, h2, h3, h4, h5⟩ := hn
  rcases hst with rfl | rfl <;>
    exact ⟨rfl, ⟨by rw [hj, ha]; rfl, by simp [hj], by rw [ha]; rfl, hb, hs, hw.1, hw.2, ht.1, ht.2, by simp [CtxState.backoffs],
      by rw [h1]; rfl, by rw [h5]; rfl, by simp [h2], by simp [h3]⟩, h4⟩

theorem headContext_newborn (s : State) (st : Station) (addPort : Fin 16) (e : Degree) (run : Run) (args : List Byte) :
    (headContext s st addPort e run (beginArgs args)).Newborn .probing :=
  darkContext_newborn (.inl rfl) ⟨rfl, rfl⟩ (optFrom1_clampByte (by omega) _) (optFrom1_clampByte (by omega) _)
    (clampNat_mem (by omega) _) (targetOf_mem _ _) ⟨rfl, rfl, rfl, rfl, rfl⟩

theorem probeContext_newborn (s : State) {q : Probe} (id : Word32) (owner : Station) (sides : Sides) {st : CtxState}
    (hst : st = .probing ∨ st = .reserved) (hw : 1 ≤ q.window ∧ q.window ≤ 20) (hs : 1 ≤ q.step ∧ q.step ≤ 30) :
    (probeContext s q id owner sides st).Newborn st :=
  darkContext_newborn hst ⟨rfl, rfl⟩ (by simpa [probeContext, optFrom1] using hs) (by simpa [probeContext, optFrom1] using hs)
    hw (targetOf_mem _ _) ⟨rfl, rfl, rfl, rfl, rfl⟩

/-- The window and the step of a well-formed PROBE are in their ranges (R97). -/
theorem parseFrame_probe_ranges {own n : Word16} {l route : List Byte} {id : Word32} {k f w window step len : Nat}
    (h : parseFrame own l = some ⟨n, id, .probe k f w window step len route⟩) :
    (1 ≤ window ∧ window ≤ 20) ∧ 1 ≤ step ∧ step ≤ 30 := by
  obtain ⟨fields, hf⟩ := parseFrame_body h
  have hk : kindByte l = 1 := parseFrame_kind h
  rw [hk, parseBody, if_pos rfl] at hf
  unfold parseProbe at hf
  split at hf
  · dsimp only at hf
    split at hf
    · cases hf; exact ⟨clampNat_mem (by omega) _, clampNat_mem (by omega) _⟩
    · cases hf
  · cases hf

/-! ### Arguments and searches -/

theorem timingValue_mem {lo hi present : Nat} (h : lo ≤ hi) (hp : lo ≤ present ∧ present ≤ hi) (args : List Byte) (n : Nat) :
    lo ≤ timingValue args n lo hi present ∧ timingValue args n lo hi present ≤ hi := by
  unfold timingValue
  split
  · exact clampNat_mem h _
  · exact hp

/-- What a creation chooses from, and the IDs it looks for, are the records' and the ended list's (R25, R26). -/
theorem State.chooseRecord_congr {s t : State} (hc : t.contexts = s.contexts) (he : t.endedList = s.endedList) :
    t.chooseRecord = s.chooseRecord := by
  unfold State.chooseRecord State.context; rw [hc, he]

/-! ### Reading commands change nothing (R17, R38, R77) -/

section
variable {P : State → Prop} {s : State}

theorem readContextBody_leaves (h : P s) (st : Station) (args : List Byte) : (readContextBody st args s).Leaves P := by
  unfold Machine.readContextBody; dsimp only
  split
  · split
    · exact h
    · trivial
  · split
    · split <;> exact h
    · trivial

theorem readMapBody_leaves (h : P s) (st : Station) (args : List Byte) : (readMapBody st args s).Leaves P := by
  unfold Machine.readMapBody; dsimp only
  split
  · split
    · exact h
    · trivial
  · trivial

theorem readPointBody_leaves (h : P s) (st : Station) (args : List Byte) : (readPointBody st args s).Leaves P := by
  unfold Machine.readPointBody
  split
  · exact h
  · trivial

end

namespace Kept

variable {P : State → Prop} (K : Kept P) {s t : State}
include K

/-! ### Commands about the node, the links, the maps and the stations -/

theorem nextChangedBody (h : P s) (st : Station) (args : List Byte) : (nextChangedBody st args s).Leaves P := by
  unfold Machine.nextChangedBody
  split
  next i _ =>
    refine K.quiet h { Quiet.refl s with changed := fun o j hj => ?_ }
    simp only [Fin.getElem_fin, put_get] at hj
    split at hj
    next e =>
      subst e
      rw [put_get] at hj
      split at hj
      · cases hj
      · exact hj
    · exact hj
  · exact h

theorem readLinkBody (h : P s) (st : Station) (args : List Byte) : (readLinkBody st args s).Leaves P := by
  unfold Machine.readLinkBody
  split
  · split
    · exact h
    · split
      · exact K.quiet h (.modLink Link.wellFormed_clearCounts)
      · trivial
  · trivial

theorem setAttentionMaskBody (h : P s) (st : Station) (args : List Byte) : (setAttentionMaskBody st args s).Leaves P := by
  unfold Machine.setAttentionMaskBody
  split
  · exact K.quiet h { Quiet.refl s with }
  · trivial

theorem clearStationBody (h : P s) (st : Station) (args : List Byte) : (clearStationBody st args s).Leaves P := by
  refine K.quiet h { Quiet.refl s with changed := fun o j hj => ?_ }
  simp only [Fin.getElem_fin, put_get] at hj
  split at hj
  · simp at hj
  · exact hj

theorem configureNodeBody (h : P s) (args : List Byte) : (configureNodeBody args s).Leaves P := by
  unfold Machine.configureNodeBody
  split
  · trivial
  next hid =>
    split
    · trivial
    · exact K.quiet h { Quiet.refl s with configuration := fun ⟨ht, hp, hl, _⟩ => ⟨ht, hp, hl, fun _ => hid⟩ }

theorem openNodeBody (h : P s) (args : List Byte) : (openNodeBody args s).Leaves P := by
  unfold Machine.openNodeBody
  split
  · trivial
  next hid => exact K.quiet h { Quiet.refl s with configuration := fun ⟨ht, hp, hl, _⟩ => ⟨ht, hp, hl, fun _ => hid⟩ }

theorem closeNodeBody (h : P s) (args : List Byte) : (closeNodeBody args s).Leaves P :=
  K.quiet h { Quiet.refl s with configuration := fun ⟨ht, hp, hl, _⟩ => ⟨ht, hp, hl, nofun⟩ }

theorem setTimingBody (h : P s) (args : List Byte) : (setTimingBody args s).Leaves P :=
  K.quiet h { Quiet.refl s with configuration := fun ⟨⟨t1, t2, t3, t4, t5, t6, t7⟩, hrest⟩ =>
    ⟨⟨timingValue_mem (by omega) t1 _ _, timingValue_mem (by omega) t2 _ _, timingValue_mem (by omega) t3 _ _,
      timingValue_mem (by omega) t4 _ _, timingValue_mem (by omega) t5 _ _, timingValue_mem (by omega) t6 _ _,
      timingValue_mem (by omega) t7 _ _⟩, hrest⟩ }

theorem setLockoutBody (h : P s) (args : List Byte) : (setLockoutBody args s).Leaves P := by
  unfold Machine.setLockoutBody; dsimp only
  split
  · trivial
  next hw =>
    rw [not_or] at hw
    refine K.quiet h { Quiet.refl s with configuration := fun ⟨ht, hp, _, hn⟩ => ⟨ht, hp, ?_, hn⟩ }
    simpa using hw.1

theorem linkEnableBody (h : P s) (args : List Byte) : (linkEnableBody args s).Leaves P := by
  unfold Machine.linkEnableBody
  split
  · trivial
  · split
    · trivial
    · split
      · trivial
      · exact K.quiet h (.modLink Link.wellFormed_enable)

theorem linkDisableBody (h : P s) (args : List Byte) : (linkDisableBody args s).Leaves P := by
  unfold Machine.linkDisableBody
  split
  · trivial
  · split
    · trivial
    · exact K.quiet h (.modLink Link.wellFormed_disable)

theorem rangeBody (h : P s) (f : Slot → Slot) (args : List Byte) : (rangeBody f args s).Leaves P := by
  unfold Machine.rangeBody; dsimp only
  split
  · trivial
  · split
    · trivial
    · split
      · trivial
      · exact K.quiet h { Quiet.refl s with }

/-! ### Commands about points -/

theorem setPointBody (h : P s) (args : List Byte) : (setPointBody args s).Leaves P := by
  unfold Machine.setPointBody; dsimp only
  split
  · trivial
  next p _ =>
    split
    · trivial
    next hlimit =>
      split
      · trivial
      · have hq : P (s.modPoint p fun x => { x with
            limit := newLimit args (s.point p), density := newDensity args (s.point p)
            guardTol := newGuard args (s.point p) }) := by
          refine K.quiet h (.modPoint ⟨rfl, rfl, rfl, rfl, rfl, rfl⟩ fun ⟨hl, hd, hg⟩ => ⟨?_, ?_, ?_⟩)
          · dsimp only
            unfold newLimit at hlimit ⊢
            split
            next hgiven =>
              simp only [hgiven, if_true, true_and, not_or, not_lt] at hlimit
              exact hlimit
            · exact hl
          · dsimp only
            unfold newDensity
            split
            · exact clampInt_mem (by omega) _
            · exact hd
          · dsimp only
            unfold newGuard
            split
            · exact clampNat_mem (by omega) _
            · exact hg
        change P (if _ then _ else _)
        split
        · exact K.attempt p hq
        · exact hq

theorem forceDarkBody (h : P s) (args : List Byte) : (forceDarkBody args s).Leaves P := by
  unfold Machine.forceDarkBody; dsimp only
  split
  · trivial
  next p _ =>
    split
    · trivial
    · split
      · trivial
      · split
        · trivial
        next hbusy =>
          have hnone : (s.point p).service = .none := by
            by_contra hs; exact hbusy (Service.busy_iff.2 hs)
          exact K.grant p (K.quiet h (.modPoint ⟨rfl, rfl, rfl, by rw [hnone]; rfl, rfl, rfl⟩ id))

theorem rereferenceBody (h : P s) (args : List Byte) : (rereferenceBody args s).Leaves P := by
  unfold Machine.rereferenceBody
  split
  · trivial
  · exact K.quiet h (.mapContexts (Context.refresh_alike _))

/-! ### Commands about lightpaths -/

/-- A creation after a change of maps, links and points (R27). -/
theorem createAfter {i : CtxIx} {c : Context} {st : CtxState} (h : P s) (hq : Quiet s t) (hctx : t.contexts = s.contexts)
    (hi : s.chooseRecord = some i) (hid : s.findLive c.lightpathId = none) (hc : c.Newborn st) : P (t.create i c st) := by
  refine K.create (K.quiet h hq) ((State.chooseRecord_congr hctx hq.endedList).trans hi) ?_ hc
  have hnone : NoneLive s c.lightpathId := State.findLive_eq_none_iff.1 hid
  unfold NoneLive State.context; rw [hctx]; exact hnone

theorem adoptBody (h : P s) (args : List Byte) : (adoptBody args s).Leaves P := by
  unfold Machine.adoptBody; dsimp only
  split
  · trivial
  · split
    · trivial
    next sides _ =>
      split
      · trivial
      next hargs =>
        simp only [Bool.or_eq_true, decide_eq_true_eq, not_or, not_lt] at hargs
        obtain ⟨-, ha⟩ := hargs
        split
        · trivial
        next hid =>
          rw [Bool.not_eq_true, Option.isSome_eq_false_iff, Option.isNone_iff_eq_none] at hid
          split
          · trivial
          next i hi =>
            split
            · trivial
            · split
              · trivial
              · split
                · trivial
                · have hw := Quiet.writeRun s sides.mapsUsed (runAt args 7) (.lit i)
                  refine K.createAfter (K.quiet h hw) (.modPoint ⟨rfl, rfl, rfl, rfl, rfl, rfl⟩ id) rfl
                    ((State.chooseRecord_congr (by simp) (by simp)).trans hi) ?_
                    (adoptedContext_newborn _ _ _ _ ha (clampNat_mem (by omega) _).1 (clampNat_mem (by omega) _).2)
                  unfold State.findLive State.context
                  rw [State.writeRun_contexts]; exact hid

theorem beginBody (h : P s) (st : Station) (args : List Byte) : (beginBody st args s).Leaves P := by
  unfold Machine.beginBody; dsimp only
  split
  · trivial
  · split
    · trivial
    · split
      · trivial
      · split
        · split
          · trivial
          next hid =>
            rw [Bool.not_eq_true, Option.isSome_eq_false_iff, Option.isNone_iff_eq_none] at hid
            split
            · trivial
            next i hi =>
              split
              · trivial
              · split
                · trivial
                · refine K.quiet ?_ (.offer _ _ _ _)
                  exact K.createAfter h (.writeRun _ _ _ _) (State.writeRun_contexts _ _ _ _) hi hid
                    (headContext_newborn _ _ _ _ _ _)
        · trivial

theorem startRampBody (h : P s) (st : Station) (args : List Byte) : (startRampBody st args s).Leaves P := by
  unfold Machine.startRampBody
  split
  · trivial
  next i c hf =>
    obtain ⟨hc, -, -⟩ := s.findLive_some hf
    split
    · trivial
    · split
      next hr => exact K.joinLine h hc hr.2.1
      · trivial

theorem teardownBody (h : P s) (st : Station) (args : List Byte) : (teardownBody st args s).Leaves P := by
  unfold Machine.teardownBody
  split
  · trivial
  next i c hf =>
    obtain ⟨hc, -, -⟩ := s.findLive_some hf
    split
    · trivial
    next hr =>
      rw [not_or, not_not] at hr
      split
      · trivial
      · exact K.retireAtTail _ _ h hc (not_not.1 hr.2)

theorem localAbort {i : CtxIx} {c : Context} (h : P s) (hc : s.context i = some c) (hl : c.live = true) (e : Ending) :
    P (s.localAbort i c e) := by
  refine K.abortEffect e (K.quiet (K.quiet h (.offerTo _ _ _ _)) (.offerTo _ _ _ _)) ?_ hl
  simpa [State.context] using hc

theorem abortBody (h : P s) (st : Station) (args : List Byte) : (abortBody st args s).Leaves P := by
  unfold Machine.abortBody
  split
  · trivial
  next i c hf =>
    obtain ⟨hc, hl, -⟩ := s.findLive_some hf
    split
    · trivial
    · split
      · exact h
      · exact K.localAbort h hc hl _

theorem releaseBody (h : P s) (st : Station) (args : List Byte) : (releaseBody st args s).Leaves P := by
  unfold Machine.releaseBody
  split
  · trivial
  · split
    · trivial
    next c hc =>
      split
      · trivial
      next hst =>
        split
        · trivial
        · exact K.release h hc (not_not.1 hst)

/-- A command keeps what its body keeps (R152, R161). -/
theorem command {ofRow : Command → Bool} {layout : List Byte → Bool} {body : Station → List Byte → State → Verdict}
    (h : P s) (hb : ∀ {u : State}, P u → ∀ st args, (body st args u).Leaves P) (hx : runCommand ofRow layout body s = .next t) :
    P t :=
  runCommand_keeps h (fun st => K.quiet h (.taken s st)) (fun u st x hu => K.quiet hu (.setHolder u st x))
    (fun st args => hb (K.quiet h (.taken s st)) st args) hx

/-- The same for a command of station 0 alone (R162). -/
theorem commandOfZero {ofRow : Command → Bool} {layout : List Byte → Bool} {body : List Byte → State → Verdict}
    (h : P s) (hb : ∀ {u : State}, P u → ∀ args, (body args u).Leaves P)
    (hx : runCommand ofRow layout (stationZero body) s = .next t) : P t :=
  K.command h (fun hu _ args => stationZero_leaves (hb hu args)) hx

/-! ### Frames (R97 to R114, R131) -/

/-- A taking keeps what its act keeps, for a frame as it was read. -/
theorem takeFrame {d : Degree} {ofRow : Byte → Bool} {act : Frame → State → State} (h : P s)
    (hact : ∀ {frame : Frame} {bytes : List Byte}, parseFrame s.nodeId bytes = some frame → P (act frame (s.removeHead d))) :
    P (s.takeFrame d ofRow act) := by
  unfold State.takeFrame
  split
  · split
    · split
      next hparse => exact hact hparse
      · exact K.quiet (K.quiet h (.removeHead s d)) (.countMalformed _ d)
    · exact h
  · exact h

theorem forContext {d : Degree} {frame : Frame} {row : Context → Bool} {effect : CtxIx → Context → State → State} (h : P s)
    (taken : ∀ i c, s.context i = some c → c.live = true → row c = true → P (effect i c s)) :
    P (s.forContext d frame row effect) :=
  State.forContext_keeps (K.quiet h (.countStray s d)) taken

theorem takeProbe (h : P s) (d : Degree) (id : Word32) {q : Probe} (hw : 1 ≤ q.window ∧ q.window ≤ 20)
    (hs : 1 ≤ q.step ∧ q.step ≤ 30) : P (s.takeProbe d id q) := by
  have hoffer (n : Word32) (b : FrameBody) : P (s.offer d n b) := K.quiet h (.offer s d n b)
  unfold State.takeProbe
  dsimp only
  split
  · exact hoffer _ _
  · split
    · exact hoffer _ _
    next hid =>
      rw [Bool.not_eq_true, Option.isSome_eq_false_iff, Option.isNone_iff_eq_none] at hid
      have created {i : CtxIx} (hi : s.chooseRecord = some i) (maps : List MapIx) (owner : Station) (sides : Sides)
          {st : CtxState} (hst : st = .probing ∨ st = .reserved) :
          P ((s.writeRun maps q.run (.held i)).create i (probeContext s q id owner sides st) st) :=
        K.createAfter h (.writeRun _ _ _ _) (State.writeRun_contexts _ _ _ _) hi hid
          (probeContext_newborn _ _ _ _ hst hw hs)
      split
      · exact hoffer _ _
      next i hi =>
        split
        · split
          · split
            · exact hoffer _ _
            · unfold State.probeTransit
              split
              · exact hoffer _ _
              · exact K.quiet (created hi _ _ _ (.inl rfl)) (.offer _ _ _ _)
          · exact h
        · split
          · unfold State.probeTail
            split
            · exact hoffer _ _
            · exact K.quiet (created hi _ _ _ (.inr rfl)) (.offer _ _ _ _)
          · exact h

theorem takeClear {i : CtxIx} {c : Context} (h : P s) (hc : s.context i = some c) (hst : c.state = .probing) :
    P (s.takeClear i c) := by
  have hent := K.reserve h hc hst
  unfold State.takeClear
  dsimp only
  split
  · split
    · exact K.joinLine (c := { c with state := .reserved, watchTimer := watchLoad s.timing c .reserved }) hent
        (s.enter_context i i c .reserved |>.trans (if_pos rfl)) rfl
    · exact hent
  · exact K.quiet hent (.offer _ _ _ _)
  · exact hent

theorem takeAbort {i : CtxIx} {c : Context} (h : P s) (hc : s.context i = some c) (hl : c.live = true) (d : Degree)
    (o : Cause) (n : Word16) : P (s.takeAbort d i c o n) := by
  unfold State.takeAbort
  split
  · exact h
  · exact K.abortEffect _ (K.quiet h (.offerTo _ _ _ _)) (by simpa [State.context] using hc) hl

theorem execProbe (h : P s) (d : Degree) (hx : execProbe d s = .next t) : P t := by
  refine next_keeps (K.takeFrame h fun {frame _} hparse => ?_) hx
  have hrem := K.quiet h (.removeHead s d)
  obtain ⟨n, id, body⟩ := frame
  dsimp only
  split
  · obtain ⟨hw, hs⟩ := parseFrame_probe_ranges hparse
    exact K.takeProbe hrem _ _ hw hs
  · exact hrem

theorem execClear (h : P s) (d : Degree) (hx : execClear d s = .next t) : P t := by
  refine next_keeps (K.takeFrame h fun _ => ?_) hx
  have hrem := K.quiet h (.removeHead s d)
  split
  · refine K.forContext hrem fun i c hc _ hr => ?_
    simp only [Context.meetsClear, Bool.and_eq_true, beq_iff_eq] at hr
    obtain ⟨⟨-, hst⟩, -⟩ := hr
    exact K.takeClear hrem hc hst
  · exact hrem

theorem execRefuse (h : P s) (d : Degree) (hx : execRefuse d s = .next t) : P t := by
  refine next_keeps (K.takeFrame h fun _ => ?_) hx
  have hrem := K.quiet h (.removeHead s d)
  split
  · refine K.forContext hrem fun i c hc _ hr => ?_
    simp only [Bool.and_eq_true, beq_iff_eq] at hr
    exact K.quiet (K.endNeverLit _ hrem hc hr.2) (.offerTo _ _ _ _)
  · exact hrem

theorem execLight (h : P s) (d : Degree) (hx : execLight d s = .next t) : P t := by
  refine next_keeps (K.takeFrame h fun _ => ?_) hx
  have hrem := K.quiet h (.removeHead s d)
  refine K.forContext hrem fun i c hc _ hr => ?_
  simp only [Bool.and_eq_true, beq_iff_eq] at hr
  exact K.joinLine hrem hc hr.2

theorem execLit (h : P s) (d : Degree) (hx : execLit d s = .next t) : P t := by
  refine next_keeps (K.takeFrame h fun _ => ?_) hx
  have hrem := K.quiet h (.removeHead s d)
  refine K.forContext hrem fun i c hc _ hr => ?_
  simp only [Bool.and_eq_true, beq_iff_eq] at hr
  exact K.quiet (K.quiet (K.serve hrem hc hr.2) (.writeRun _ _ _ _)) (.offerTo _ _ _ _)

theorem execAbort (h : P s) (d : Degree) (hx : execAbort d s = .next t) : P t := by
  refine next_keeps (K.takeFrame h fun _ => ?_) hx
  have hrem := K.quiet h (.removeHead s d)
  split
  · exact K.forContext hrem fun i c hc hl _ => K.takeAbort hrem hc hl _ _ _
  · exact hrem

theorem execTeardown (h : P s) (d : Degree) (hx : execTeardown d s = .next t) : P t := by
  refine next_keeps (K.takeFrame h fun _ => ?_) hx
  have hrem := K.quiet h (.removeHead s d)
  refine K.forContext hrem fun i c hc _ hr => ?_
  simp only [Bool.and_eq_true, beq_iff_eq] at hr
  exact K.quiet (K.retireAtTail _ _ hrem hc hr.2) (.offerTo _ _ _ _)

theorem execReceiveError (h : P s) (d : Degree) (hx : execReceiveError d s = .next t) : P t := by
  refine next_keeps ?_ hx
  split
  · split
    · exact K.quiet (K.quiet h (.removeHead s d)) (.modLink Link.wellFormed_rxError)
    · exact h
  · exact h

/-! ### Ports and timers -/

theorem execSweepRecord (h : P s) (bytes : List Byte) (hx : execSweepRecord bytes s = .next t) : P t := by
  have hdiscard := K.quiet h (.discardSweep s)
  refine next_keeps ?_ hx
  split
  · unfold State.takeSweep
    split
    · exact hdiscard
    · split
      · exact hdiscard
      · exact K.acceptSweep _ _ _ h
  · exact hdiscard

theorem execAcknowledgement (h : P s) (bytes : List Byte) (hx : execAcknowledgement bytes s = .next t) : P t := by
  have hunmatched := K.quiet h (.unmatched s)
  refine next_keeps ?_ hx
  split
  · split
    next o p _ hp =>
      have hany := List.find?_some (p := fun q : PointIx => (s.outstanding[q]).any fun x : Outstanding => x.tag == _) hp
      obtain ⟨x, hsome, -⟩ := (Option.any_eq_true _ _).1 hany
      exact K.deliver s.toSend o h (by rw [State.isOutstanding, hsome]; rfl)
    · exact hunmatched
  · exact hunmatched

theorem execActuatorTimerExpiry (h : P s) (p : PointIx) (hx : execActuatorTimerExpiry p s = .next t) : P t := by
  refine next_keeps ?_ hx
  split
  next e he =>
    split
    · exact K.deliver _ _ h (by rw [State.isOutstanding, he]; rfl)
    · exact h
  · exact h

theorem execWatchTimerExpiry (h : P s) (i : CtxIx) (hx : execWatchTimerExpiry i s = .next t) : P t := by
  refine next_keeps ?_ hx
  split
  next c hc =>
    split
    next w _ hw =>
      refine K.localAbort h hc ?_ _
      rw [Context.live]
      cases hst : c.state <;> simp_all [CtxState.timed]
    · exact h
  · exact h

/-! ### Every row of the table, and the step -/

/-- What a command or an event does keeps what quiet changes and the engines' operations keep. -/
theorem exec (h : P s) (i : Instr) (hx : exec i s = .next t) : P t := by
  cases i with
  | readNode => exact K.command (body := readNodeBody) h (fun {u} hu _ _ => K.quiet hu { Quiet.refl u with }) hx
  | readContext => exact K.command h readContextBody_leaves hx
  | nextChanged => exact K.command h K.nextChangedBody hx
  | readMap => exact K.command h readMapBody_leaves hx
  | readPoint => exact K.command h readPointBody_leaves hx
  | readLink => exact K.command h K.readLinkBody hx
  | setAttentionMask => exact K.command h K.setAttentionMaskBody hx
  | clearStation => exact K.command h K.clearStationBody hx
  | configureNode => exact K.commandOfZero h K.configureNodeBody hx
  | openNode => exact K.commandOfZero h K.openNodeBody hx
  | closeNode => exact K.commandOfZero h K.closeNodeBody hx
  | setTiming => exact K.commandOfZero h K.setTimingBody hx
  | setPoint => exact K.commandOfZero h K.setPointBody hx
  | setLockout => exact K.commandOfZero h K.setLockoutBody hx
  | linkControlEnable => exact K.commandOfZero h K.linkEnableBody hx
  | linkControlDisable => exact K.commandOfZero h K.linkDisableBody hx
  | barSlots => exact K.commandOfZero h (fun hu => K.rangeBody hu Slot.bar) hx
  | unbarSlots => exact K.commandOfZero h (fun hu => K.rangeBody hu Slot.unbar) hx
  | forceDark => exact K.commandOfZero h K.forceDarkBody hx
  | rereferencePoint => exact K.commandOfZero h K.rereferenceBody hx
  | adoptLightpath => exact K.commandOfZero h K.adoptBody hx
  | beginLightpath => exact K.command h K.beginBody hx
  | startRamp => exact K.command h K.startRampBody hx
  | teardownLightpath => exact K.command h K.teardownBody hx
  | abortLightpath => exact K.command h K.abortBody hx
  | releaseContext => exact K.command h K.releaseBody hx
  | unknownCommand => exact K.command h (fun _ _ _ => Verdict.leaves_refused _ _) hx
  | write start data endMark => exact next_keeps (K.quiet h (.write s start data endMark)) hx
  | read start taken => exact next_keeps (K.quiet h (.read s start taken)) hx
  | poll start => exact next_keeps (K.quiet h (.startTransaction s start)) hx
  | busClear => exact next_keeps (K.quiet h (.busClear s)) hx
  | reset strap carriers => exact next_keeps (K.reset (afterReset_resetWith strap carriers s.outputs s.pending)) hx
  | carrierArrival link => exact next_keeps (K.quiet h (.modLink Link.wellFormed_arrive)) hx
  | carrierLoss link => exact next_keeps (K.quiet h (.carrierLoss s link)) hx
  | frameCompletion link bytes => exact next_keeps (K.quiet h (.receive s link _)) hx
  | frameDeparture link => exact next_keeps (K.quiet h (.depart s link)) hx
  | receiveError link => exact K.execReceiveError h link hx
  | probe link => exact K.execProbe h link hx
  | clear link => exact K.execClear h link hx
  | refuse link => exact K.execRefuse h link hx
  | light link => exact K.execLight h link hx
  | lit link => exact K.execLit h link hx
  | abort link => exact K.execAbort h link hx
  | teardown link => exact K.execTeardown h link hx
  | sweepRecord bytes => exact K.execSweepRecord h bytes hx
  | acknowledgement bytes => exact K.execAcknowledgement h bytes hx
  | actuatorTimerExpiry point => exact K.execActuatorTimerExpiry h point hx
  | settingTransmission => refine next_keeps ?_ hx; exact K.quiet h { Quiet.refl s with }
  | watchTimerExpiry context => exact K.execWatchTimerExpiry h context hx
  | sweepTimerExpiry point => exact next_keeps (K.sweepExpiry point h) hx
  | unknownFrameKind link =>
    exact next_keeps (K.takeFrame h fun _ => K.quiet (K.quiet h (.removeHead s link)) (.countMalformed _ link)) hx
  | otherTargetAddressByte address => exact next_keeps (K.quiet h (.endTransaction s)) hx

/-- What quiet changes and the engines' operations keep, every step keeps. -/
theorem step (h : P s) (hx : step s = .next t) : P t := by
  unfold Machine.step at hx
  split at hx
  · cases hx; exact K.quiet h (.tick s)
  next c rest _ => exact K.exec (K.quiet h (t := { s with pending := rest }) { Quiet.refl s with }) c hx

end Kept
end Sys2Proof.Machine
end

section
/-! ## The engines' operations as sequences of edits -/

namespace Sys2Proof.Machine

/-! ### The journal (R20, R62) -/

theorem journalChain_concat (a b : Atten) (j : List JournalRecord) (r : JournalRecord) :
    journalChain a (j ++ [r]) b = true ↔
      journalChain a j r.before = true ∧ r.after ≠ .block ∧ r.after.inRange = true ∧ r.after = b := by
  induction j generalizing a with
  | nil => simp [journalChain, and_assoc, @eq_comm _ r.before a]
  | cons x xs ih => simp [journalChain, ih, and_assoc]

/-- The end of a chain that begins in range is in range. -/
theorem journalChain_inRange {a b : Atten} {j : List JournalRecord} (h : journalChain a j b = true) (ha : a.inRange = true) :
    b.inRange = true := by
  induction j generalizing a with
  | nil => simp only [journalChain, beq_iff_eq] at h; rwa [← h]
  | cons x xs ih =>
    simp only [journalChain, Bool.and_eq_true] at h
    obtain ⟨⟨⟨-, -⟩, hr⟩, hrest⟩ := h
    exact ih hrest hr

/-- The merge of the two oldest records leaves a chain with the same ends (R62). -/
theorem journalChain_mergeOldest {a b : Atten} {j : List JournalRecord} (h : journalChain a j b = true) :
    journalChain a (mergeOldest j) b = true := by
  unfold mergeOldest
  split
  · simp_all [journalChain]
  · exact h

theorem length_mergeOldest {j : List JournalRecord} (h : 2 ≤ j.length) : (mergeOldest j).length + 1 = j.length := by
  match j, h with
  | _ :: _ :: _, _ => rfl

theorem length_pushJournal {j : List JournalRecord} (h : j.length ≤ 16) (r : JournalRecord) : (pushJournal j r).length ≤ 16 := by
  unfold pushJournal
  split
  next hlen =>
    have := length_mergeOldest (j := j) (by omega)
    simp; omega
  · simp; omega

theorem journalChain_pushJournal {a b : Atten} {j : List JournalRecord} (h : journalChain a j b = true) {n : Nat}
    (hn : n ≤ 250) : journalChain a (pushJournal j ⟨b, .tenths n⟩) (.tenths n) = true := by
  unfold pushJournal
  rw [journalChain_concat]
  refine ⟨?_, nofun, by simpa [Atten.inRange] using hn, rfl⟩
  split
  · exact journalChain_mergeOldest h
  · exact h

/-! ### Records that suit another state -/

namespace Context.Suits

variable {c : Context} {st : CtxState}

theorem restate (h : c.Suits st) {x : CtxState} (hb : x.backoffs.getD 0 ≤ 3) (hc : x.charged = st.charged)
    (he : x.ending = st.ending) : c.Suits x :=
  { h with backoffs := hb, charge := h.charge.trans hc.symm, ending := h.ending.trans he.symm }

/-- A record whose journal leads to its attenuation. -/
theorem journalled (h : c.Suits st) {j : List JournalRecord} {a : Atten} (hj : journalChain .block j a = true)
    (hlen : j.length ≤ 16) : ({ c with journal := j, attenuation := a } : Context).Suits st :=
  { h with chain := hj, length := hlen, attenuation := journalChain_inRange hj rfl }

/-- A retirement turn takes the journal back (R81, R85). -/
theorem turned (h : c.Suits st) (m : Mode) : (c.turned m).Suits st := by
  cases m with
  | hard => exact h.journalled (j := []) rfl (Nat.zero_le _)
  | gradual =>
    have hlen : c.journal.dropLast.length ≤ 16 := by have := h.length; simp; omega
    refine h.journalled ?_ hlen
    rcases List.eq_nil_or_concat c.journal with hj | ⟨init, r, hj⟩
    · simp [hj, journalChain]
    · have hchain := h.chain
      rw [hj, List.concat_eq_append, journalChain_concat] at hchain
      simpa [hj] using hchain.1

/-- A charged record enters RETIRING with an end cause (R21). -/
theorem retiring (h : c.Suits st) (hc : st.charged = true) (a : Option Ending) (e : Ending) (m : Mode) (x : RetireSub) :
    ({ c with abortPending := a, ending := some e } : Context).Suits (.retiring m x) :=
  { h with backoffs := by simp [CtxState.backoffs], charge := h.charge.trans hc, ending := rfl }

/-- An admitted record is charged (R53, R56). -/
theorem admitted (h : c.Suits .waitBudget) (q : Nat) :
    ({ c with charge := some q, step := c.baseStep } : Context).Suits (.ramping .queued 0) :=
  { h with step := h.baseStep, charge := rfl, measured := fun _ => rfl, reference := fun _ => rfl, backoffs := Nat.zero_le _ }

/-- A record that ends gives up its charge and its measurements (R30). -/
theorem ended (h : c.Suits st) (e : Ending) : ({ c with
    charge := none, lastMeasured := none, reference := none, abortPending := none, ending := some e } : Context).Suits .ended :=
  { h with backoffs := Nat.zero_le _, charge := rfl, ending := rfl, measured := nofun, reference := nofun }

/-- A record takes a reference while it is charged (R70). -/
theorem referenced (h : c.Suits st) (r : Option Reference) (hr : r.isSome = true → c.charge.isSome = true) :
    ({ c with reference := r } : Context).Suits st := { h with reference := hr }

end Context.Suits

theorem optFrom1_halveStep {o : Option Nat} (h : optFrom1 30 o = true) : optFrom1 30 (o.map halveStep) = true := by
  cases o with
  | none => rfl
  | some n =>
    simp only [optFrom1, Option.all_some, decide_eq_true_eq, Option.map_some, halveStep] at h ⊢
    omega

/-- A step at grant stays within 0 to 250 (R48). -/
theorem grantOutcome_le {c : Context} {a : Nat} (hc : c.attenuation.inRange = true)
    (h : grantOutcome c = some (.stepTo a)) : a ≤ 250 := by
  unfold grantOutcome at h
  split at h
  · cases h
  next b hb =>
    rw [hb] at hc
    simp only [Atten.inRange, decide_eq_true_eq] at hc
    obtain ⟨m, -, hm⟩ := Option.map_eq_some_iff.1 h
    unfold numericGrant at hm
    split at hm
    · cases hm
    · split at hm
      · split at hm
        · cases hm
        · cases hm; omega
      · split at hm
        · cases hm
        · cases hm; omega

/-! ### Edits -/

/-- A live record is written again: its ID, its owner and its being live stay, and it stays as its rules say. -/
structure Context.Becomes (c d : Context) : Prop where
  lightpathId : d.lightpathId = c.lightpathId
  owner : d.owner = c.owner
  live : d.live = c.live
  wellFormed : c.wellFormed → d.wellFormed

/-- A record written again in a state with its watch timer as before. -/
theorem Context.Becomes.rewritten {c d : Context} (hl : d.live = c.live) (hx : d.state.watched = c.state.watched)
    (hs : c.Suits c.state → d.Suits d.state) (hid : d.lightpathId = c.lightpathId := by rfl) (ho : d.owner = c.owner := by rfl)
    (hw : d.watchTimer = c.watchTimer := by rfl) : c.Becomes d := by
  refine ⟨hid, ho, hl, fun h => ?_⟩
  obtain ⟨hsuits, htimer⟩ := Context.wellFormed_iff.1 h
  exact Context.wellFormed_iff.2 ⟨hs hsuits, by rw [hw, hx, htimer]⟩

/-- What the engines and the commands do to the part, piece by piece. -/
inductive Edit : State → State → Prop
  /-- a change beside the engines -/
  | quiet {s t : State} : Quiet s t → Edit s t
  /-- a point engine changes, its configuration aside -/
  | point {s : State} (p : PointIx) (f : Point → Point) :
      (∀ x, (f x).limit = x.limit ∧ (f x).density = x.density ∧ (f x).guardTol = x.guardTol) → Edit s (s.modPoint p f)
  /-- a setting is offered (R143) -/
  | setting {s : State} (p : PointIx) (r : Run) (b : SettingBody) : Edit s (s.offerSetting p r b)
  /-- an outstanding entry leaves its table (R144, R146) -/
  | removal {s : State} (p : PointIx) (w : List Setting) : Edit s { s.removeEntry p with toSend := w }
  /-- a record is written again -/
  | record {s : State} {i : CtxIx} {c d : Context} : s.context i = some c → c.Becomes d → Edit s (s.setContext i (some d))
  /-- a record's change is notified (R32) -/
  | notice {s : State} {i : CtxIx} {c : Context} : s.context i = some c → Edit s (s.notify i c.owner)
  /-- a live record ends (R30) -/
  | ending {s : State} {i : CtxIx} {c : Context} (e : Ending) : s.context i = some c → c.live = true → Edit s (s.endRecord i c e)
  /-- a record is created (R27, R28) -/
  | creation {s : State} {i : CtxIx} {c : Context} {st : CtxState} : s.chooseRecord = some i → NoneLive s c.lightpathId →
      c.Newborn st → Edit s (s.create i c st)
  /-- an ENDED record is released (R31) -/
  | release {s : State} {i : CtxIx} {c : Context} : s.context i = some c → c.state = .ended →
      Edit s ((s.forget i).setContext i none)

/-- A sequence of edits. -/
def Edits (s t : State) : Prop := Relation.ReflTransGen Edit s t

namespace Edits

variable {s t u : State}

theorem refl (s : State) : Edits s s := Relation.ReflTransGen.refl

theorem trans (h : Edits s t) (k : Edits t u) : Edits s u := Relation.ReflTransGen.trans h k

theorem of_edit (h : Edit s t) : Edits s t := Relation.ReflTransGen.single h

/-- What every edit keeps, a sequence of edits keeps. -/
theorem keeps {P : State → Prop} (hedit : ∀ {s t : State}, Edit s t → P s → P t) (h : Edits s t) (hs : P s) : P t := by
  induction h with
  | refl => exact hs
  | tail _ hlast ih => exact hedit hlast ih

theorem quiet (h : Quiet s t) : Edits s t := of_edit (.quiet h)

/-- A point changes in what the engines hold there. -/
theorem modPoint (s : State) (p : PointIx) {f : Point → Point}
    (h : ∀ x, (f x).limit = x.limit ∧ (f x).density = x.density ∧ (f x).guardTol = x.guardTol := by
      exact fun _ => ⟨rfl, rfl, rfl⟩) : Edits s (s.modPoint p f) :=
  of_edit (.point p f h)

theorem armSettle (s : State) (p : PointIx) (n : Nat) : Edits s (s.armSettle p n) := modPoint s p

theorem stopCounting (s : State) (p : PointIx) : Edits s (s.stopCounting p) := modPoint s p

theorem offerSetting (s : State) (p : PointIx) (r : Run) (b : SettingBody) : Edits s (s.offerSetting p r b) :=
  of_edit (.setting p r b)

theorem setContext {i : CtxIx} {c d : Context} (hc : s.context i = some c) (hd : c.Becomes d) :
    Edits s (s.setContext i (some d)) := of_edit (.record hc hd)

/-- A state change of a live record, notified (R32, R34). -/
theorem enter {i : CtxIx} {b c : Context} {st : CtxState} (hb : s.context i = some b) (hl : b.live = true)
    (hst : st ≠ .ended) (hs : b.Suits b.state → c.Suits st) (hid : c.lightpathId = b.lightpathId := by rfl)
    (ho : c.owner = b.owner := by rfl) : Edits s (s.enter i c st) := by
  have hbecomes : b.Becomes { c with state := st, watchTimer := watchLoad s.timing c st } :=
    ⟨hid, ho, by rw [hl]; simpa [Context.live] using hst, fun h => (hs (Context.wellFormed_iff.1 h).1).enter _⟩
  exact (setContext hb hbecomes).trans
    (of_edit (.notice (c := { c with state := st, watchTimer := _ }) (State.setContext_context_self _ _ _)))

theorem offer (s : State) (d : Degree) (n : Word32) (b : FrameBody) : Edits s (s.offer d n b) := quiet (.offer s d n b)

theorem offerTo (s : State) (d : Option Degree) (n : Word32) (b : FrameBody) : Edits s (s.offerTo d n b) :=
  quiet (.offerTo s d n b)

theorem offerAborts (s : State) (c : Context) (o : Cause) (n : Word16) : Edits s (s.offerAborts c o n) :=
  (offerTo s _ _ _).trans (offerTo _ _ _ _)

/-! #### Turns -/

theorem turnBegun {p : PointIx} {i : CtxIx} {c : Context} {m : Mode} {x : RetireSub} (hc : s.context i = some c)
    {k : Mode} (hst : c.state = .retiring k x) : Edits s (s.turnBegun p i c m) := by
  refine (setContext hc (.rewritten ?_ ?_ (fun h => ?_) (by cases m <;> rfl) (by cases m <;> rfl) (by cases m <;> rfl))).trans
    (offerSetting _ _ _ _)
  · rw [Context.live, Context.live, hst]; rfl
  · rw [hst]; rfl
  · rw [hst] at h
    have hnew := (h.turned m).restate (x := .retiring m .actuating) (Nat.zero_le _) rfl rfl
    exact { hnew with }

theorem hardTurn {p : PointIx} {i : CtxIx} {c : Context} {k : Mode} {x : RetireSub} (hc : s.context i = some c)
    (hst : c.state = .retiring k x) : Edits s (s.hardTurn p i) := by
  rw [s.hardTurn_eq hc]; exact turnBegun hc hst

theorem retireTurn {p : PointIx} {i : CtxIx} {c : Context} {k : Mode} {x : RetireSub} (hc : s.context i = some c)
    (hst : c.state = .retiring k x) (m : Mode) : Edits s (s.retireTurn p i m) := by
  rw [s.retireTurn_eq hc]; exact turnBegun hc hst

theorem retireHolder {p : PointIx} {i : CtxIx} {c : Context} (hc : s.context i = some c) (hst : c.state.charged = true)
    (e : Ending) (m : Mode) : Edits s (s.retireHolder p i c e m) := by
  have hl : c.live = true := by
    unfold Context.live
    cases hx : c.state <;> simp_all [CtxState.charged]
  rw [State.retireHolder_eq, State.holderRetired]
  refine ((modPoint s p).trans (enter (b := c) hc hl (by nofun) (fun h => ?_)
    (by cases m <;> rfl) (by cases m <;> rfl))).trans (offerSetting _ _ _ _)
  exact (h.turned m).retiring hst none e m .actuating

theorem rampFault {p : PointIx} {i : CtxIx} {c : Context} (hc : s.context i = some c) (hst : c.state.charged = true)
    (f : Cause) : Edits s (s.rampFault p i c f) :=
  (offerAborts s c f s.nodeId).trans (retireHolder (by simpa [State.context] using hc) hst _ _)

theorem settled {p : PointIx} {i : CtxIx} {c : Context} {x : RampSub} {n : Nat} (hc : s.context i = some c)
    (hst : c.state = .ramping x n) {st : CtxState} (hnew : st = .inService ∨ st = .passed) : Edits s (s.settled p i c st) := by
  have hb : ((s.refreshReferences p).releaseLock p).context i = some (c.refresh p) := by
    have := s.mapContexts_context (fun c => c.refresh p) i
    rw [hc] at this; exact this
  have hrefresh : c.refresh p = c := by
    unfold Context.refresh Context.refreshable Context.settled
    simp [hst]
  rw [hrefresh] at hb
  refine ((quiet (.mapContexts (Context.refresh_alike p))).trans (modPoint _ p)).trans
    (enter hb (by simp [Context.live, hst]) ?_ fun h => ?_)
  · rcases hnew with rfl | rfl <;> nofun
  · rw [hst] at h
    have hr := h.referenced (c.lastMeasured.map Measured.toReference) (by simpa using h.measured)
    rcases hnew with rfl | rfl <;> exact hr.restate (Nat.zero_le _) rfl rfl

theorem settleTurn {p : PointIx} {i : CtxIx} {c : Context} {x : RampSub} {n : Nat} (hc : s.context i = some c)
    (hst : c.state = .ramping x n) : Edits s (s.settleTurn p i c) := by
  rw [State.settleTurn_eq]
  split
  · exact ((settled hc hst (.inl rfl)).trans (quiet (.writeRun _ _ _ _))).trans (offerTo _ _ _ _)
  · exact (settled hc hst (.inr rfl)).trans (offerTo _ _ _ _)

theorem forwardStep {p : PointIx} {i : CtxIx} {c : Context} {x : RampSub} {n a : Nat} (hc : s.context i = some c)
    (hst : c.state = .ramping x n) (ha : c.attenuation.inRange = true → a ≤ 250) : Edits s (s.forwardStep p i c n a) := by
  refine (setContext hc (.rewritten (by rw [Context.live, Context.live, hst]; rfl) (by rw [hst]; rfl) fun h => ?_)).trans
    (offerSetting _ _ _ _)
  have hj := h.journalled (journalChain_pushJournal h.chain (ha h.attenuation)) (length_pushJournal h.length _)
  rw [hst] at hj
  have hnew := hj.restate (x := .ramping .actuating n) hj.backoffs rfl rfl
  exact { hnew with }

theorem grantLoop (p : PointIx) (l : List CtxIx) (s : State) : Edits s (State.grantLoop p l s) := by
  induction l generalizing s with
  | nil => exact refl s
  | cons i rest ih =>
    unfold State.grantLoop
    split
    · exact refl s
    next c hc =>
      dsimp only
      have hm : Edits s (s.modPoint p fun q => { q with queue := rest, holder := some i }) := modPoint s p
      have hc' : (s.modPoint p fun q => { q with queue := rest, holder := some i }).context i = some c := hc
      split
      next hst =>
        split
        · exact refl s
        · exact hm.trans (forwardStep hc' hst fun _ => Nat.le_refl _)
        next ha => exact hm.trans (forwardStep hc' hst fun h => grantOutcome_le h ha)
        · exact (hm.trans (settleTurn hc' hst)).trans (ih _)
        · exact hm.trans (rampFault hc' (by rw [hst]; rfl) _)
      next hst => exact hm.trans (retireTurn hc' hst _)
      all_goals exact refl s

theorem grant (s : State) (p : PointIx) : Edits s (s.grant p) := by
  unfold State.grant
  split
  · split
    · exact (modPoint s p).trans (offerSetting _ _ _ _)
    · exact refl s
    · exact grantLoop p _ s
  · exact refl s

/-! #### Admission -/

theorem admitOne {p : PointIx} {i : CtxIx} {c : Context} (hc : s.context i = some c) (hst : c.state = .waitBudget)
    (rest : List CtxIx) : Edits s (s.admitOne p i rest c) := by
  refine (modPoint s p).trans
    (enter (b := c) hc (by simp [Context.live, hst]) (by nofun) fun h => ?_)
  rw [hst] at h
  exact h.admitted _

theorem admitLoop (p : PointIx) (l : List CtxIx) (s : State) : Edits s (State.admitLoop p l s) := by
  induction l generalizing s with
  | nil => exact refl s
  | cons i rest ih =>
    unfold State.admitLoop
    split
    · exact refl s
    next c hc =>
      split
      next hw => exact (admitOne hc hw.1 rest).trans (ih _)
      · exact refl s

theorem attempt (s : State) (p : PointIx) : Edits s (s.attempt p) := (admitLoop p _ s).trans (grant _ p)

theorem joinLine {i : CtxIx} {c : Context} (hc : s.context i = some c) (hst : c.state = .reserved) :
    Edits s (s.joinLine i c) := by
  refine ((enter hc (by simp [Context.live, hst]) (by nofun) fun h => ?_).trans
    (modPoint _ _)).trans (attempt _ _)
  rw [hst] at h
  exact h.restate (Nat.zero_le _) rfl rfl

/-! #### Endings -/

theorem endRecord {i : CtxIx} {c : Context} (hc : s.context i = some c) (hl : c.live = true) (e : Ending) :
    Edits s (s.endRecord i c e) := of_edit (.ending e hc hl)

theorem discharge (s : State) (c : Context) : Edits s (s.discharge c) := by
  unfold State.discharge
  split
  · exact modPoint s _
  · exact refl s

theorem endNeverLit {i : CtxIx} {c : Context} (hc : s.context i = some c) (hl : c.live = true) (e : Ending) :
    Edits s (s.endNeverLit i c e) := by
  unfold State.endNeverLit
  dsimp only
  have hend := (((modPoint s c.point (f := fun q => { q with line := q.line.erase i, queue := q.queue.erase i })
   ).trans (discharge _ c)).trans (quiet (.writeRun _ c.sides.mapsUsed c.run .free))).trans
      (endRecord (by simpa [State.context] using hc) hl e)
  split
  · exact hend.trans (attempt _ _)
  · exact hend

/-- The end of a darkening, before its admission attempt (R87, R88). -/
theorem darkened {p : PointIx} {i : CtxIx} {c : Context} (hc : s.context i = some c) (hl : c.live = true) (x : Slot)
    (al : Alerts) (e : Ending) (b : Bool) : Edits s (s.darkened p i c x al e b) := by
  have halerts (v : State) : Quiet v { v with alerts := al } := { Quiet.refl v with }
  have hend : Edits s ({ ((s.discharge c).releaseLock p).writeRun c.sides.mapsUsed c.run x with alerts := al }.endRecord i c e) :=
    ((((discharge s c).trans (modPoint _ p)).trans (quiet (.writeRun _ _ _ _))).trans
      (quiet (halerts _))).trans (endRecord (by simpa [State.context, State.releaseLock] using hc) hl e)
  unfold State.darkened State.teardownAtDark
  split
  · exact hend.trans (offer _ _ _ _)
  · exact hend

theorem dark {p : PointIx} {i : CtxIx} {c : Context} (hc : s.context i = some c) (hl : c.live = true) :
    Edits s (s.dark p i c) := by
  cases he : c.ending with
  | none => unfold State.dark; rw [he]; exact refl s
  | some e => rw [dark_eq he]; exact (darkened hc hl _ _ _ _).trans (attempt _ _)

theorem darkUnconfirmed {p : PointIx} {i : CtxIx} {c : Context} (hc : s.context i = some c) (hl : c.live = true) :
    Edits s (s.darkUnconfirmed p i c) := by
  cases he : c.ending with
  | none => unfold State.darkUnconfirmed; rw [he]; exact refl s
  | some e => rw [darkUnconfirmed_eq he]; exact (darkened hc hl _ _ _ _).trans (attempt _ _)

/-! #### Aborts -/

theorem retireAtTail {i : CtxIx} {c : Context} (hc : s.context i = some c) (hst : c.state = .passed ∨ c.state = .inService)
    (e : Ending) (m : Mode) : Edits s (s.retireAtTail i c e m) := by
  have hl : c.live = true := by rcases hst with h | h <;> simp [Context.live, h]
  have hcharged : c.state.charged = true := by rcases hst with h | h <;> rw [h] <;> rfl
  exact ((enter hc hl (by nofun) fun h => h.retiring hcharged _ e m .queued).trans
    (modPoint _ _)).trans (grant _ _)

theorem abortEffect {i : CtxIx} {c : Context} (hc : s.context i = some c) (hl : c.live = true) (e : Ending) :
    Edits s (s.abortEffect i c e) := by
  unfold State.abortEffect
  split
  · exact endNeverLit hc hl e
  · exact endNeverLit hc hl e
  · exact endNeverLit hc hl e
  next hst =>
    split
    · exact endNeverLit hc hl e
    · exact enter hc hl (by nofun) fun h => h.retiring (by rw [hst]; rfl) _ e .gradual .queued
  next hst =>
    split
    · exact setContext hc (.rewritten (by rfl) (by rfl) fun h => { h with })
    · exact retireHolder hc (by rw [hst]; rfl) _ _
  next hst => exact retireAtTail hc (.inl hst) _ _
  next hst => exact retireAtTail hc (.inr hst) _ _
  · exact refl s
  · exact refl s

/-! #### Measurement -/

theorem violation {p : PointIx} {i : CtxIx} {c : Context} {x : RampSub} {n : Nat} (hc : s.context i = some c)
    (hst : c.state = .ramping x n) : Edits s (s.violation p i c n) := by
  have hfault (f : Cause) : Edits s (s.rampFault p i c f) := rampFault hc (by rw [hst]; rfl) f
  unfold State.violation
  split
  · exact hfault _
  next hn =>
    split
    next a after hlast =>
      refine (setContext hc (.rewritten (by rw [Context.live, Context.live, hst]; rfl) (by rw [hst]; rfl) fun h => ?_)).trans
        (offerSetting _ _ _ _)
      have hj := h.turned .gradual
      simp only [Context.turned, hlast] at hj
      rw [hst] at hj
      have hnew := hj.restate (x := .ramping .backoff (n + 1)) (by simp only [CtxState.backoffs, Option.getD_some]; omega) rfl rfl
      exact { hnew with step := optFrom1_halveStep h.step }
    · exact hfault _
    · exact hfault _

/-- A ramping or retiring record keeps to its kind in another sub-state. -/
theorem restated {i : CtxIx} {c : Context} {st : CtxState} (hc : s.context i = some c) (hl : c.state ≠ .ended)
    (hst : st ≠ .ended) (hw : st.watched = c.state.watched) (hb : c.state.backoffs.getD 0 ≤ 3 → st.backoffs.getD 0 ≤ 3)
    (hch : st.charged = c.state.charged) (he : st.ending = c.state.ending) :
    Edits s (s.setContext i (some { c with state := st })) :=
  by
  have hlive : (st != .ended) = (c.state != .ended) := by rw [bne_iff_ne.2 hst, bne_iff_ne.2 hl]
  exact setContext hc (.rewritten hlive hw fun h => { h.restate (hb h.backoffs) hch he with })

theorem requeue {p : PointIx} {i : CtxIx} {c : Context} {st : CtxState}
    (h : Edits s (s.setContext i (some { c with state := st }))) : Edits s (s.requeue p i c st) :=
  (h.trans (modPoint _ _)).trans (grant _ _)

theorem measureForward {p : PointIx} {i : CtxIx} {c : Context} {x : RampSub} {n : Nat} (hc : s.context i = some c)
    (hst : c.state = .ramping x n) : Edits s (s.measureForward p i c n) := by
  unfold State.measureForward
  split
  · exact violation hc hst
  · split
    · exact refl s
    · split
      · exact (settleTurn hc hst).trans (grant _ _)
      · exact rampFault hc (by rw [hst]; rfl) _
      · exact requeue (restated hc (by simp [hst]) (by nofun) (by rw [hst]; rfl) (fun _ => Nat.zero_le _) (by rw [hst]; rfl)
          (by rw [hst]; rfl))

theorem measureBackoff {p : PointIx} {i : CtxIx} {c : Context} {x : RampSub} {n : Nat} (hc : s.context i = some c)
    (hst : c.state = .ramping x n) : Edits s (s.measureBackoff p i c n) := by
  unfold State.measureBackoff
  split
  · exact violation hc hst
  · exact requeue (restated hc (by simp [hst]) (by nofun) (by rw [hst]; rfl) (by rw [hst]; exact id) (by rw [hst]; rfl)
      (by rw [hst]; rfl))

theorem countSweep (s : State) (p : PointIx) : Edits s (s.countSweep p) := by
  unfold State.countSweep
  split
  · exact refl s
  · split
    next c k hc _ =>
      have hstop := stopCounting s p
      have harm := armSettle s p k
      split
      next hst =>
        split
        · exact hstop.trans (measureForward hc hst)
        · exact harm
      next hst =>
        split
        · exact hstop.trans (measureBackoff hc hst)
        · exact harm
      next hst =>
        split
        · exact hstop.trans (requeue (restated (by exact hc) (by simp [hst]) (by nofun) (by rw [hst]; rfl) (fun _ => Nat.zero_le _)
            (by rw [hst]; rfl) (by rw [hst]; rfl)))
        · exact harm
      · exact refl s
    · exact refl s

theorem acceptSweep (s : State) (p : PointIx) (q : Byte) (r : List Word16) : Edits s (s.acceptSweep p q r) :=
  ((modPoint s p).trans (quiet (.mapContexts (Context.measure_alike p r)))).trans (countSweep _ p)

/-! #### Outcomes and expiries -/

theorem serviceOutcome (s : State) (p : PointIx) (o : SettingOutcome) : Edits s (s.serviceOutcome p o) := by
  have h : Edits s (s.modPoint p fun q => { q with service := .none, lastService := some o }) :=
    modPoint s p
  have hraise (v : State) : Quiet v v.raiseActuator := { Quiet.refl v with }
  unfold State.serviceOutcome
  cases o
  · exact h.trans (grant _ _)
  · exact (h.trans (quiet (hraise _))).trans (grant _ _)
  · exact (h.trans (quiet (hraise _))).trans (grant _ _)

theorem rampOutcome {p : PointIx} {i : CtxIx} {c : Context} {x : RampSub} {n : Nat} (hc : s.context i = some c)
    (hst : c.state = .ramping x n) (o : SettingOutcome) : Edits s (s.rampOutcome p i c x n o) := by
  cases o
  · have hset : Edits s (s.setContext i (some { c with state := .ramping (if x = .backoff then .backoff else .settling) n })) :=
      restated hc (by simp [hst]) (by nofun) (by rw [hst]; rfl) (by rw [hst]; exact id) (by rw [hst]; rfl) (by rw [hst]; rfl)
    exact hset.trans (armSettle _ p 2)
  · exact rampFault hc (by rw [hst]; rfl) _
  · exact rampFault hc (by rw [hst]; rfl) _

theorem gradualOutcome {p : PointIx} {i : CtxIx} {c : Context} {x : RetireSub} (hc : s.context i = some c)
    (hst : c.state = .retiring .gradual x) (o : SettingOutcome) : Edits s (s.gradualOutcome p i c o) := by
  unfold State.gradualOutcome
  split
  · split
    · exact dark hc (by simp [Context.live, hst])
    · exact (restated hc (by simp [hst]) (by nofun) (by rw [hst]; rfl) (fun _ => Nat.zero_le _) (by rw [hst]; rfl)
        (by rw [hst]; rfl)).trans (armSettle _ p 1)
  · exact hardTurn hc hst
  · exact hardTurn hc hst

theorem deliver (s : State) (p : PointIx) (o : SettingOutcome) : Edits s (s.deliver p o) := by
  unfold State.deliver
  split
  · exact serviceOutcome s p o
  · split
    · exact refl s
    · split
      · exact refl s
      next c hc =>
        split
        next hst =>
          split
          · cases o <;> exact retireHolder hc (by rw [hst]; rfl) _ _
          · exact rampOutcome hc hst o
        next hst => exact gradualOutcome hc hst o
        next hst =>
          have hl : c.live = true := by simp [Context.live, hst]
          cases o
          · exact dark hc hl
          · exact darkUnconfirmed hc hl
          · exact darkUnconfirmed hc hl
        · exact refl s

theorem sweepExpiry (s : State) (p : PointIx) : Edits s (s.sweepExpiry p) := by
  unfold State.sweepExpiry
  split
  · split
    · exact refl s
    next c hc =>
      split
      next hst => exact rampFault hc (by rw [hst]; rfl) _
      next hst => exact (stopCounting s p).trans (hardTurn hc hst)
      · exact refl s
  · exact refl s

end Edits

/-- What every edit and a reset keep, every step keeps. -/
theorem Kept.of_edits {P : State → Prop} (hedit : ∀ {s t : State}, Edit s t → P s → P t)
    (hreset : ∀ {strap : BitVec 3} {carriers : BitVec 8} {t : State}, AfterReset strap carriers t → P t) : Kept P where
  quiet h hq := hedit (.quiet hq) h
  reset := hreset
  create h hi hid hc := hedit (.creation hi hid hc) h
  release h hc hst := hedit (.release hc hst) h
  grant p h := (Edits.grant _ p).keeps hedit h
  attempt p h := (Edits.attempt _ p).keeps hedit h
  reserve h hc hst := by
    refine (Edits.enter hc (by simp [Context.live, hst]) (by nofun) fun hs => ?_).keeps hedit h
    rw [hst] at hs
    exact hs.restate (Nat.zero_le _) rfl rfl
  joinLine h hc hst := (Edits.joinLine hc hst).keeps hedit h
  serve h hc hst := by
    refine (Edits.enter hc (by simp [Context.live, hst]) (by nofun) fun hs => ?_).keeps hedit h
    rw [hst] at hs
    exact hs.restate (Nat.zero_le _) rfl rfl
  retireAtTail e m h hc hst := (Edits.retireAtTail hc (.inr hst) e m).keeps hedit h
  endNeverLit e h hc hst := (Edits.endNeverLit hc (by simp [Context.live, hst]) e).keeps hedit h
  abortEffect e h hc hl := (Edits.abortEffect hc hl e).keeps hedit h
  acceptSweep p q r h := (Edits.acceptSweep _ p q r).keeps hedit h
  deliver w o h _ := ((Edits.of_edit (.removal _ w)).trans (Edits.deliver _ _ o)).keeps hedit h
  sweepExpiry p h := (Edits.sweepExpiry _ p).keeps hedit h

end Sys2Proof.Machine
end

section
/-! ## What every edit keeps -/

namespace Sys2Proof.Machine

variable {s t : State}

/-- A record of the later state is a record of the earlier one, alike. -/
theorem Quiet.context_of_some (h : Quiet s t) {i : CtxIx} {d : Context} (hd : t.context i = some d) :
    ∃ c, s.context i = some c ∧ c.Alike d := by
  have hrel := h.contexts i
  rw [hd] at hrel
  cases hs : s.context i with
  | none => rw [hs] at hrel; cases hrel
  | some c => rw [hs] at hrel; cases hrel with | some hcd => exact ⟨c, rfl, hcd⟩

theorem Quiet.some_of_context (h : Quiet s t) {i : CtxIx} {c : Context} (hc : s.context i = some c) :
    ∃ d, t.context i = some d ∧ c.Alike d := by
  have hrel := h.contexts i
  rw [hc] at hrel
  cases ht : t.context i with
  | none => rw [ht] at hrel; cases hrel
  | some d => rw [ht] at hrel; cases hrel with | some hcd => exact ⟨d, rfl, hcd⟩

theorem Context.Alike.live {c d : Context} (h : c.Alike d) : d.live = c.live := by
  rw [Context.live, h.state, Context.live]

/-! ### Links and configuration (R124, R35, R52) -/

theorem Edit.keeps_links (h : Edit s t) (hs : LinksWellFormed s) : LinksWellFormed t := by
  cases h with
  | quiet hq => exact hq.links hs
  | point | setting | removal | record | notice | ending | creation | release => exact hs

theorem Edit.keeps_bus (h : Edit s t) (hs : BusConsistent s) : BusConsistent t := by
  cases h with
  | quiet hq => exact hq.bus hs
  | point | setting | removal | record | notice | ending | creation | release => exact hs

theorem Edit.keeps_configuration (h : Edit s t) (hs : ConfigurationLegal s) : ConfigurationLegal t := by
  cases h with
  | quiet hq => exact hq.configuration hs
  | point p f hf =>
    obtain ⟨htiming, hpoints, hrest⟩ := hs
    refine ⟨htiming, fun q => ?_, hrest⟩
    rw [State.modPoint_point]
    split
    · obtain ⟨hl, hd, hg⟩ := hf (s.point p)
      rw [hl, hd, hg]; exact hpoints p
    · exact hpoints q
  | setting | removal | record | notice | ending | creation | release => exact hs

/-! ### Outstanding tags (R141, R143) -/

/-- Sixteen entries cannot hold seventeen tags: the tag an offer gives is held by none (R143). -/
theorem firstFreeTag_not_held (s : State) : s.tagHeld (firstFreeTag s.tagHeld 16 s.nextTag) = false := by
  rcases firstFreeTag_spec s.tagHeld 16 s.nextTag with ⟨k, -, htag, hfree, -⟩ | ⟨htag, hheld⟩
  · rw [htag]; exact hfree
  · rw [htag]
    by_contra hlast
    rw [Bool.not_eq_false] at hlast
    have held (k : Fin 17) : ∃ p : PointIx, (s.outstanding[p]).map Outstanding.tag = some (s.nextTag + BitVec.ofNat 8 k) := by
      have h : s.tagHeld (s.nextTag + BitVec.ofNat 8 k) = true := by
        by_cases hk : k.val < 16
        · exact hheld k hk
        · rw [show k.val = 16 by omega]; exact hlast
      simp only [State.tagHeld, List.any_eq_true, Option.any_eq_true, beq_iff_eq] at h
      obtain ⟨o, ho, e, rfl, he⟩ := h
      obtain ⟨p, hp, hget⟩ := List.getElem_of_mem ho
      refine ⟨⟨p, by simpa using hp⟩, ?_⟩
      rw [Vector.getElem_toList] at hget
      simp [hget, he]
    choose place hplace using held
    obtain ⟨a, b, hne, hab⟩ := Fintype.exists_ne_map_eq_of_card_lt place (by simp)
    refine hne (Fin.ext ?_)
    have hsame : s.nextTag + BitVec.ofNat 8 a = s.nextTag + BitVec.ofNat 8 b :=
      Option.some.inj ((hplace a).symm.trans ((congrArg _ (by rw [hab])).trans (hplace b)))
    have hnat := congrArg BitVec.toNat (BitVec.add_right_inj _ |>.1 hsame)
    simp only [BitVec.toNat_ofNat] at hnat
    omega

theorem tagHeld_eq_false_iff {tag : Byte} :
    s.tagHeld tag = false ↔ ∀ p : PointIx, ∀ e ∈ s.outstanding[p], e.tag ≠ tag := by
  simp only [State.tagHeld, List.any_eq_false, Option.any_eq_true, beq_iff_eq, not_exists, not_and, Option.mem_def]
  constructor
  · intro h p e he
    exact h (s.outstanding[p]) (by
      rw [List.mem_iff_getElem]
      exact ⟨p.val, by simp, by rw [Vector.getElem_toList]; rfl⟩) e he
  · intro h o ho e he
    obtain ⟨p, hp, hget⟩ := List.getElem_of_mem ho
    rw [Vector.getElem_toList] at hget
    exact h ⟨p, by simpa using hp⟩ e (hget.trans he)

/-- The tags depend on the entries' tags alone. -/
theorem tagsDistinct_of_tags (hs : TagsDistinct s)
    (h : ∀ p : PointIx, ∀ e ∈ t.outstanding[p], ∃ x ∈ s.outstanding[p], x.tag = e.tag) : TagsDistinct t := by
  intro p q a ha b hb hab
  obtain ⟨x, hx, hxa⟩ := h p a ha
  obtain ⟨y, hy, hyb⟩ := h q b hb
  exact hs p q x hx y hy (by rw [hxa, hyb, hab])

theorem Edit.keeps_tags (h : Edit s t) (hs : TagsDistinct s) : TagsDistinct t := by
  cases h with
  | quiet hq =>
    refine tagsDistinct_of_tags hs fun p e he => ?_
    have ho := hq.outstanding p
    rw [Option.mem_def.1 he] at ho
    obtain ⟨x, hx, hxe⟩ := Option.map_eq_some_iff.1 ho.symm
    exact ⟨x, hx, hxe⟩
  | setting p r b =>
    have hfree := tagHeld_eq_false_iff.1 (firstFreeTag_not_held s)
    intro q q' x hx y hy hxy
    rw [State.offerSetting_outstanding] at hx hy
    split at hx <;> split at hy
    next e e' => exact e.symm.trans e'
    · cases hx; exact absurd hxy.symm (hfree q' y hy)
    · cases hy; exact absurd hxy (hfree q x hx)
    · exact hs q q' x hx y hy hxy
  | removal p w =>
    refine tagsDistinct_of_tags hs fun q e he => ?_
    simp only [State.removeEntry, Fin.getElem_fin, put_get] at he
    split at he
    · cases he
    · exact ⟨e, he, rfl⟩
  | point | record | notice | ending | creation | release => exact hs

/-! ### Records (R20, R21, R34) -/

theorem Edit.keeps_records (h : Edit s t) (hs : RecordsWellFormed s) : RecordsWellFormed t := by
  cases h with
  | quiet hq =>
    intro i d hd
    obtain ⟨c, hc, hcd⟩ := hq.context_of_some hd
    exact hcd.wellFormed (hs i c hc)
  | @record i c d hc hcd =>
    intro j x hx
    rw [State.setContext_context] at hx
    split at hx
    · cases hx; exact hcd.wellFormed (hs i c hc)
    · exact hs j x hx
  | @ending i c e hc hl =>
    intro j x hx
    rw [State.endRecord_context] at hx
    split at hx
    · cases hx
      exact ((Context.wellFormed_iff.1 (hs i c hc)).1.ended e).enter s.timing
    · exact hs j x hx
  | creation _ _ hc =>
    intro j x hx
    rw [State.create_context] at hx
    split at hx
    · cases hx; exact hc.suits.enter s.timing
    · exact hs j x hx
  | @release i c hc hst =>
    intro j x hx
    rw [State.setContext_context] at hx
    split at hx
    · cases hx
    · exact hs j x hx
  | point | setting | removal | notice => exact hs

/-! ### The table (R25, R30) -/

/-- A table with the same ended list, whose records keep their IDs and their being live. -/
theorem TableConsistent.of_alike (h : TableConsistent s) (he : t.endedList = s.endedList)
    (hc : ∀ i, t.context i = s.context i ∨ ∃ c d, s.context i = some c ∧ t.context i = some d ∧
      d.lightpathId = c.lightpathId ∧ d.live = c.live) : TableConsistent t := by
  obtain ⟨hnodup, hended, hids⟩ := h
  have back {i : CtxIx} {d : Context} (hd : t.context i = some d) :
      ∃ c, s.context i = some c ∧ d.lightpathId = c.lightpathId ∧ d.live = c.live := by
    rcases hc i with e | ⟨c, d', hc, hd', hid, hl⟩
    · exact ⟨d, e.symm.trans hd, rfl, rfl⟩
    · cases hd.symm.trans hd'; exact ⟨c, hc, hid, hl⟩
  refine ⟨by rw [he]; exact hnodup, fun i => ?_, fun i j c hci e hej hcl hel hid => ?_⟩
  · rw [he, hended i]
    rcases hc i with e | ⟨c, d, hc, hd, -, hl⟩
    · rw [e]
    · rw [hc, hd]
      simp only [Context.live] at hl
      rw [Bool.eq_iff_iff, bne_iff_ne, bne_iff_ne, not_iff_not] at hl
      simpa using hl.symm
  · obtain ⟨c', hc', hid', hl'⟩ := back hci
    obtain ⟨e', he', hide, hle⟩ := back hej
    exact hids i j c' hc' e' he' (by rw [← hl', hcl]) (by rw [← hle, hel]) (by rw [← hid', ← hide, hid])

theorem TableConsistent.not_mem_of_live (h : TableConsistent s) {i : CtxIx} {c : Context} (hc : s.context i = some c)
    (hl : c.live = true) : i ∉ s.endedList := by
  intro hi
  obtain ⟨-, hended, -⟩ := h
  have := (hended i).1 hi
  rw [hc] at this
  simp_all [Context.live]

/-- A live record joins the ended list's tail as it ends (R30). -/
theorem TableConsistent.endRecord (h : TableConsistent s) {i : CtxIx} {c : Context} (hc : s.context i = some c)
    (hl : c.live = true) (e : Ending) : TableConsistent (s.endRecord i c e) := by
  have hnot := h.not_mem_of_live hc hl
  obtain ⟨hnodup, hended, hids⟩ := h
  refine ⟨?_, fun j => ?_, fun j k x hx y hy hxl hyl hid => ?_⟩
  · rw [State.endRecord_endedList, List.nodup_append]
    refine ⟨hnodup, List.nodup_singleton i, fun a ha b hb => ?_⟩
    rw [List.mem_singleton.1 hb]
    rintro rfl
    exact hnot ha
  · rw [State.endRecord_endedList, State.endRecord_context, List.mem_append, List.mem_singleton, hended j]
    by_cases hij : i = j
    · subst hij; simp
    · simp [hij, Ne.symm hij]
  · rw [State.endRecord_context] at hx hy
    split at hx
    · cases hx; cases hxl
    · split at hy
      · cases hy; cases hyl
      · exact hids j k x hx y hy hxl hyl hid

/-- A record is created over one that is FREE or ENDED, with an ID that no live record carries (R25, R28). -/
theorem TableConsistent.create (h : TableConsistent s) {c : Context} (i : CtxIx) {st : CtxState}
    (hid : NoneLive s c.lightpathId) (hst : st ≠ .ended) : TableConsistent (s.create i c st) := by
  obtain ⟨hnodup, hended, hids⟩ := h
  refine ⟨?_, fun j => ?_, fun j k x hx y hy hxl hyl hxy => ?_⟩
  · rw [State.create_endedList]; exact hnodup.erase i
  · rw [State.create_endedList, State.create_context, hnodup.mem_erase_iff, hended j]
    by_cases hij : i = j
    · subst hij; simp [hst]
    · simp [hij, Ne.symm hij]
  · rw [State.create_context] at hx hy
    split at hx <;> split at hy
    next e e' => exact e.symm.trans e'
    · cases hx; exact absurd hxy.symm (hid k y hy hyl)
    · cases hy; exact absurd hxy (hid j x hx hxl)
    · exact hids j k x hx y hy hxl hyl hxy

theorem TableConsistent.release (h : TableConsistent s) (i : CtxIx) : TableConsistent ((s.forget i).setContext i none) := by
  obtain ⟨hnodup, hended, hids⟩ := h
  refine ⟨?_, fun j => ?_, fun j k x hx y hy hxl hyl hxy => ?_⟩
  · exact hnodup.erase i
  · rw [State.setContext_context, State.setContext_endedList, State.forget_endedList, hnodup.mem_erase_iff, hended j]
    by_cases hij : i = j
    · subst hij; simp
    · simp [hij, Ne.symm hij]
  · rw [State.setContext_context] at hx hy
    split at hx <;> split at hy
    · cases hx
    · cases hx
    · cases hy
    · exact hids j k x hx y hy hxl hyl hxy

theorem CtxState.isFirst_ne_ended {st : CtxState} (h : st.isFirst = true) : st ≠ .ended := by
  rintro rfl; cases h

theorem Edit.keeps_table (h : Edit s t) (hs : TableConsistent s) : TableConsistent t := by
  cases h with
  | quiet hq =>
    refine hs.of_alike hq.endedList fun i => ?_
    cases hc : s.context i with
    | none =>
      have hrel := hq.contexts i
      rw [hc] at hrel
      cases ht : t.context i with
      | none => exact .inl rfl
      | some d => rw [ht] at hrel; cases hrel
    | some c =>
      obtain ⟨d, hd, hcd⟩ := hq.some_of_context hc
      exact .inr ⟨c, d, rfl, hd, hcd.lightpathId, hcd.live⟩
  | @record i c d hc hcd =>
    refine hs.of_alike rfl fun j => ?_
    rw [State.setContext_context]
    split
    next e => subst e; exact .inr ⟨c, d, hc, rfl, hcd.lightpathId, hcd.live⟩
    · exact .inl rfl
  | ending e hc hl => exact hs.endRecord hc hl e
  | creation _ hid hc => exact hs.create _ hid (CtxState.isFirst_ne_ended hc.first)
  | release => exact hs.release _
  | point | setting | removal | notice => exact hs

/-! ### Changed sets (R32) -/

/-- The record at an index is a station's to be told of: it is there, and its owner's, or the station is 0 (R32). -/
def State.owns (s : State) (st : Station) (i : CtxIx) : Prop := ∃ c, s.context i = some c ∧ (st = 0 ∨ c.owner = st)

theorem changedSetsOwned_iff : ChangedSetsOwned s ↔
    ∀ (st : Station) (i : CtxIx), (s.changed[st])[i] = true → s.owns st i := by
  simp [ChangedSetsOwned, State.owns, Option.any_eq_true]

/-- An index stays owned while its record stays with its owner. -/
theorem State.owns.of_owner {st : Station} {i : CtxIx} (h : s.owns st i)
    (hc : ∀ c, s.context i = some c → ∃ d, t.context i = some d ∧ d.owner = c.owner) : t.owns st i := by
  obtain ⟨c, hc', ho⟩ := h
  obtain ⟨d, hd, hdo⟩ := hc c hc'
  exact ⟨d, hd, by rwa [hdo]⟩

theorem Edit.keeps_changed (h : Edit s t) (hs : ChangedSetsOwned s) : ChangedSetsOwned t := by
  rw [changedSetsOwned_iff] at hs ⊢
  cases h with
  | quiet hq =>
    intro st i hi
    refine (hs st i (hq.changed st i hi)).of_owner fun c hc => ?_
    obtain ⟨d, hd, hcd⟩ := hq.some_of_context hc
    exact ⟨d, hd, hcd.owner⟩
  | @record i c d hc hcd =>
    intro st j hj
    refine (hs st j hj).of_owner fun x hx => ?_
    rw [State.setContext_context]
    split
    next e => subst e; cases hc.symm.trans hx; exact ⟨d, rfl, hcd.owner⟩
    · exact ⟨x, hx, rfl⟩
  | @notice i c hc =>
    intro st j hj
    rw [State.notify_changed, Bool.or_eq_true, decide_eq_true_eq] at hj
    rcases hj with ⟨ho, rfl⟩ | hj
    · exact ⟨c, hc, ho.symm⟩
    · exact hs st j hj
  | @ending i c e hc hl =>
    intro st j hj
    have hj' : (s.enter i { c with
        charge := none, lastMeasured := none, reference := none, abortPending := none, ending := some e } .ended).changed[st][j] =
          true := hj
    rw [State.enter_changed, Bool.or_eq_true, decide_eq_true_eq] at hj'
    by_cases hij : i = j
    · subst hij
      refine ⟨_, (s.endRecord_context i i c e).trans (if_pos rfl), ?_⟩
      rcases hj' with ⟨ho, -⟩ | hold
      · exact ho.symm
      · obtain ⟨x, hx, ho⟩ := hs st i hold
        cases hc.symm.trans hx; exact ho
    · obtain ⟨x, hx, ho⟩ := hs st j (hj'.resolve_left fun h => hij h.2)
      exact ⟨x, by rw [State.endRecord_context, if_neg hij, hx], ho⟩
  | @creation i c st hi hid hc =>
    intro o j hj
    rw [State.create_changed] at hj
    split at hj
    next e => subst e; exact ⟨_, (s.create_context i i c st).trans (if_pos rfl), by simpa using hj⟩
    next e =>
      obtain ⟨x, hx, ho⟩ := hs o j hj
      exact ⟨x, by rw [State.create_context, if_neg e, hx], ho⟩
  | @release i c hc hst =>
    intro o j hj
    have hj' : (s.forget i).changed[o][j] = true := hj
    rw [State.forget_changed, Bool.and_eq_true, Bool.not_eq_true', decide_eq_false_iff_not] at hj'
    obtain ⟨hij, hj'⟩ := hj'
    obtain ⟨x, hx, ho⟩ := hs o j hj'
    exact ⟨x, ((s.forget i).setContext_context i j none).trans ((if_neg hij).trans hx), ho⟩
  | point | setting | removal => exact hs

end Sys2Proof.Machine

open Sys2Proof Sys2Proof.Machine

/-- Settles O54: each part is kept by every edit, and so by every step. -/
theorem stepKeepsLinksTagsConfigurationAndBus : Obligations.StepKeepsLinksTagsConfigurationAndBus :=
  ⟨fun _ _ => (Kept.of_edits Edit.keeps_links AfterReset.linksWellFormed).step,
    fun _ _ => (Kept.of_edits Edit.keeps_tags AfterReset.tagsDistinct).step,
    fun _ _ => (Kept.of_edits Edit.keeps_configuration AfterReset.configurationLegal).step,
    fun _ _ => (Kept.of_edits Edit.keeps_bus AfterReset.busConsistent).step⟩

/-- Settles O55: every edit of a record leaves it as its rules say. -/
theorem stepKeepsRecordsWellFormed : Obligations.StepKeepsRecordsWellFormed :=
  fun _ _ => (Kept.of_edits Edit.keeps_records AfterReset.recordsWellFormed).step

/-- Settles O56: the ended list, the IDs and the changed sets follow the records through every edit. -/
theorem stepKeepsTheTableConsistent : Obligations.StepKeepsTheTableConsistent :=
  ⟨fun _ _ => (Kept.of_edits Edit.keeps_table AfterReset.tableConsistent).step,
    fun _ _ => (Kept.of_edits Edit.keeps_changed AfterReset.changedSetsOwned).step⟩
end

section
/-! ## Points against contexts, by the place that each record's state gives it (R52, R55, R59, R141) -/

namespace Sys2Proof.Machine

/-- Where a point engine lists a context: in its budget line, in its step queue, or as the holder of its lock, with the state that its
turn is read from. -/
inductive Place where
  | line
  | queue
  | lock (st : CtxState)

/-- The place of a context in a state (R24, R55, R59); none where no point lists it. -/
def CtxState.place : CtxState → Option Place
  | .waitBudget => some .line
  | .ramping .queued _ => some .queue
  | .ramping .actuating n => some (.lock (.ramping .actuating n))
  | .ramping .settling n => some (.lock (.ramping .settling n))
  | .ramping .backoff n => some (.lock (.ramping .backoff n))
  | .retiring _ .queued => some .queue
  | .retiring m .actuating => some (.lock (.retiring m .actuating))
  | .retiring m .settling => some (.lock (.retiring m .settling))
  | .probing => none
  | .reserved => none
  | .passed => none
  | .inService => none
  | .ended => none

/-- The point at which the record at an index is listed, and where. -/
def State.seat (s : State) (i : CtxIx) : Option (PointIx × Place) :=
  (s.context i).bind fun c => c.state.place.map (Prod.mk c.point)

namespace State

variable {s t : State}

theorem seat_of_context {i : CtxIx} {c : Context} (hc : s.context i = some c) :
    s.seat i = c.state.place.map (Prod.mk c.point) := by simp [State.seat, hc]

theorem seat_eq_some {i : CtxIx} {p : PointIx} {x : Place} :
    s.seat i = some (p, x) ↔ ∃ c, s.context i = some c ∧ c.point = p ∧ c.state.place = some x := by
  simp only [State.seat, Option.bind_eq_some_iff, Option.map_eq_some_iff, Prod.mk.injEq]
  constructor
  · rintro ⟨c, hc, y, hy, hp, rfl⟩; exact ⟨c, hc, hp, hy⟩
  · rintro ⟨c, hc, hp, hy⟩; exact ⟨c, hc, x, hy, hp, rfl⟩

theorem seat_congr {i : CtxIx} (h : t.context i = s.context i) : t.seat i = s.seat i := by simp only [State.seat, h]

theorem stands_iff {p : PointIx} {i : CtxIx} {kind : CtxState → Bool} :
    s.stands p i kind = true ↔ ∃ c, s.context i = some c ∧ c.point = p ∧ kind c.state = true := by
  simp [State.stands, Option.any_eq_true]

end State

theorem CtxState.place_eq_line {st : CtxState} : st.place = some .line ↔ (st == .waitBudget) = true := by
  unfold CtxState.place; split <;> simp

theorem CtxState.place_eq_queue {st : CtxState} : st.place = some .queue ↔ st.queued = true := by
  unfold CtxState.place; split <;> simp [CtxState.queued]

theorem CtxState.place_eq_lock {st x : CtxState} : st.place = some (.lock x) ↔ st.holding = true ∧ st = x := by
  unfold CtxState.place; split <;> simp [CtxState.holding]

/-- A turn is read from a holder's state alone (R24). -/
theorem holding_of_phaseAgrees {st : CtxState} {o a : Bool} {n : Nat} (h : phaseAgrees st o n a = true) : st.holding = true := by
  unfold phaseAgrees at h
  split at h <;> simp_all [CtxState.holding]

/-- One point's line, queue, holder and turn agree with the places of the records (R55, R59, R141). -/
structure PointAgrees (s : State) (p : PointIx) : Prop where
  line_nodup : (s.point p).line.Nodup
  queue_nodup : (s.point p).queue.Nodup
  line : ∀ i, i ∈ (s.point p).line ↔ s.seat i = some (p, .line)
  queue : ∀ i, i ∈ (s.point p).queue ↔ s.seat i = some (p, .queue)
  holder : ∀ i, (s.point p).holder = some i ↔ ∃ st, s.seat i = some (p, .lock st)
  turn : ∀ i st, s.seat i = some (p, .lock st) → (s.point p).service.isActive = false ∧
    phaseAgrees st (s.isOutstanding p) (s.point p).settle (s.point p).sweepTimer.isSome = true
  idle : (s.point p).holder = none → s.isOutstanding p = (s.point p).service.isActive ∧ (s.point p).settle = 0 ∧
    (s.point p).sweepTimer.isSome = false
  pending : ∀ i c, s.context i = some c → c.point = p → c.abortPending.isSome = true →
    (s.point p).holder = some i ∧ s.isOutstanding p = true ∧ c.state.backoffs.isSome = true

theorem turnAgrees_of_holder {s : State} {p : PointIx} {i : CtxIx} {c : Context} (hh : (s.point p).holder = some i)
    (hc : s.context i = some c) : s.turnAgrees p = true ↔ (s.point p).service.isActive = false ∧
      phaseAgrees c.state (s.isOutstanding p) (s.point p).settle (s.point p).sweepTimer.isSome = true := by
  simp [State.turnAgrees, hh, hc]

theorem turnAgrees_of_none {s : State} {p : PointIx} (hh : (s.point p).holder = none) :
    s.turnAgrees p = true ↔ s.isOutstanding p = (s.point p).service.isActive ∧ (s.point p).settle = 0 ∧
      (s.point p).sweepTimer.isSome = false := by
  simp [State.turnAgrees, hh, and_assoc]

/-- The agreement of the points, point by point and place by place. -/
theorem pointsConsistent_iff {s : State} : PointsConsistent s ↔ ∀ p, PointAgrees s p := by
  have hline (p : PointIx) (i : CtxIx) : s.stands p i (· == .waitBudget) = true ↔ s.seat i = some (p, .line) := by
    simp only [State.stands_iff, State.seat_eq_some, CtxState.place_eq_line]
  have hqueue (p : PointIx) (i : CtxIx) : s.stands p i CtxState.queued = true ↔ s.seat i = some (p, .queue) := by
    simp only [State.stands_iff, State.seat_eq_some, CtxState.place_eq_queue]
  have hlock (p : PointIx) (i : CtxIx) : s.stands p i CtxState.holding = true ↔ ∃ st, s.seat i = some (p, .lock st) := by
    simp only [State.stands_iff, State.seat_eq_some, CtxState.place_eq_lock]
    exact ⟨fun ⟨c, hc, hp, hh⟩ => ⟨c.state, c, hc, hp, hh, rfl⟩, fun ⟨_, c, hc, hp, hh, _⟩ => ⟨c, hc, hp, hh⟩⟩
  refine forall_congr' fun p => ?_
  simp only [hline, hqueue, hlock]
  constructor
  · rintro ⟨h1, h2, h3, h4, h5, h6, h7⟩
    refine ⟨h1, h2, h3, h4, h5, fun i st hi => ?_, fun hh => (turnAgrees_of_none hh).1 h6, h7⟩
    obtain ⟨c, hc, -, hst⟩ := State.seat_eq_some.1 hi
    rw [(CtxState.place_eq_lock.1 hst).2.symm]
    exact (turnAgrees_of_holder ((h5 i).2 ⟨st, hi⟩) hc).1 h6
  · intro h
    refine ⟨h.line_nodup, h.queue_nodup, h.line, h.queue, h.holder, ?_, h.pending⟩
    cases hh : (s.point p).holder with
    | none => exact (turnAgrees_of_none hh).2 (h.idle hh)
    | some i =>
      obtain ⟨st, hi⟩ := (h.holder i).1 hh
      obtain ⟨c, hc, -, hst⟩ := State.seat_eq_some.1 hi
      rw [turnAgrees_of_holder hh hc, (CtxState.place_eq_lock.1 hst).2]
      exact h.turn i st hi

variable {s t : State}

/-- A point at which nothing that is read of it has changed. -/
theorem PointAgrees.congr {p : PointIx} (h : PointAgrees s p) (ha : (s.point p).Alike (t.point p))
    (ho : t.isOutstanding p = s.isOutstanding p) (hs : ∀ j x, t.seat j = some (p, x) ↔ s.seat j = some (p, x))
    (hp : ∀ j d, t.context j = some d → d.point = p → d.abortPending.isSome = true →
      ∃ c, s.context j = some c ∧ c.point = p ∧ c.abortPending.isSome = true ∧ d.state.backoffs = c.state.backoffs) :
    PointAgrees t p where
  line_nodup := by rw [ha.line]; exact h.line_nodup
  queue_nodup := by rw [ha.queue]; exact h.queue_nodup
  line i := by rw [ha.line, hs]; exact h.line i
  queue i := by rw [ha.queue, hs]; exact h.queue i
  holder i := by simp only [ha.holder, hs]; exact h.holder i
  turn i st hi := by rw [ha.active, ha.settle, ha.armed, ho]; exact h.turn i st ((hs i _).1 hi)
  idle hh := by rw [ha.active, ha.settle, ha.armed, ho]; exact h.idle (ha.holder.symm.trans hh)
  pending i d hd hdp hda := by
    obtain ⟨c, hc, hcp, hca, hb⟩ := hp i d hd hdp hda
    rw [ha.holder, ho, hb]
    exact h.pending i c hc hcp hca

namespace PointsConsistent

theorem agrees (h : PointsConsistent s) (p : PointIx) : PointAgrees s p := pointsConsistent_iff.1 h p

/-- A context that no lock of its point is held by has no abort pending (R75). -/
theorem abortPending_eq_none (h : PointsConsistent s) {i : CtxIx} {c : Context} (hc : s.context i = some c)
    (hst : c.state.holding = false) : c.abortPending = none := by
  by_contra ha
  obtain ⟨hh, -, -⟩ := (h.agrees c.point).pending i c hc rfl (Option.isSome_iff_ne_none.2 ha)
  obtain ⟨st, hi⟩ := ((h.agrees c.point).holder i).1 hh
  obtain ⟨e, he, -, hp⟩ := State.seat_eq_some.1 hi
  cases hc.symm.trans he
  rw [(CtxState.place_eq_lock.1 hp).1] at hst
  cases hst

end PointsConsistent

/-! ### Changes beside the engines -/

namespace Quiet

variable (hq : Quiet s t)
include hq

theorem seat (j : CtxIx) : t.seat j = s.seat j := by
  cases hc : s.context j with
  | none =>
    have hrel := hq.contexts j
    rw [hc] at hrel
    cases ht : t.context j with
    | none => simp [State.seat, hc, ht]
    | some d => rw [ht] at hrel; cases hrel
  | some c =>
    obtain ⟨d, hd, hcd⟩ := hq.some_of_context hc
    rw [State.seat_of_context hc, State.seat_of_context hd, hcd.state, Context.point, hcd.sides, Context.point]

theorem isOutstanding (p : PointIx) : t.isOutstanding p = s.isOutstanding p := by
  have := congrArg Option.isSome (hq.outstanding p)
  simp only [Option.isSome_map] at this; exact this

theorem pointAgrees {p : PointIx} (h : PointAgrees s p) : PointAgrees t p := by
  refine h.congr (hq.points p) (hq.isOutstanding p) (fun j x => by rw [hq.seat]) fun j d hd hdp hda => ?_
  obtain ⟨c, hc, hcd⟩ := hq.context_of_some hd
  exact ⟨c, hc, by rw [← hdp, Context.point, Context.point, hcd.sides], by rw [← hcd.abortPending]; exact hda, by rw [hcd.state]⟩

end Quiet

namespace PointsConsistent

/-- A change beside the engines leaves every point as it stood. -/
theorem quiet (h : PointsConsistent s) (hq : Quiet s t) : PointsConsistent t :=
  pointsConsistent_iff.2 fun p => hq.pointAgrees (h.agrees p)

/-- The agreement is about records, points and settings alone. -/
theorem congr (h : PointsConsistent s) (hc : t.contexts = s.contexts) (hp : t.points = s.points)
    (ho : t.outstanding = s.outstanding) : PointsConsistent t := by
  have hseat (j : CtxIx) : t.seat j = s.seat j := by simp only [State.seat, State.context, hc]
  refine pointsConsistent_iff.2 fun p => (h.agrees p).congr ?_ ?_ (fun j x => by rw [hseat]) fun j d hd hdp hda => ?_
  · rw [show t.point p = s.point p by simp only [State.point, hp]]; exact .refl _
  · simp only [State.isOutstanding, ho]
  · exact ⟨d, by simpa only [State.context, hc] using hd, hdp, hda, rfl⟩

/-- A record changes, but not its place; the points stand as they were. -/
theorem inPlace {i : CtxIx} (h : PointsConsistent s) (hj : ∀ j, i ≠ j → t.context j = s.context j) (hi : t.seat i = s.seat i)
    (ha : ∀ d ∈ t.context i, d.abortPending = none) (hp : t.points = s.points) (ho : t.outstanding = s.outstanding) :
    PointsConsistent t := by
  have hseat (j : CtxIx) : t.seat j = s.seat j := by
    by_cases e : i = j
    · subst e; exact hi
    · exact State.seat_congr (hj j e)
  refine pointsConsistent_iff.2 fun p => (h.agrees p).congr ?_ ?_ (fun j x => by rw [hseat]) fun j d hd hdp hda => ?_
  · rw [show t.point p = s.point p by simp only [State.point, hp]]; exact .refl _
  · simp only [State.isOutstanding, ho]
  · by_cases e : i = j
    · subst e; rw [ha d hd] at hda; cases hda
    · exact ⟨d, (hj j e).symm.trans hd, hdp, hda, rfl⟩

theorem not_mem_line (h : PointsConsistent s) {i : CtxIx} {c : Context} (hc : s.context i = some c) (hst : c.state ≠ .waitBudget)
    (p : PointIx) : i ∉ (s.point p).line := by
  rw [(h.agrees p).line, State.seat_eq_some]
  rintro ⟨d, hd, -, hp⟩
  cases hc.symm.trans hd
  exact hst (beq_iff_eq.1 (CtxState.place_eq_line.1 hp))

theorem not_mem_queue (h : PointsConsistent s) {i : CtxIx} {c : Context} (hc : s.context i = some c)
    (hst : c.state.queued = false) (p : PointIx) : i ∉ (s.point p).queue := by
  rw [(h.agrees p).queue, State.seat_eq_some]
  rintro ⟨d, hd, -, hp⟩
  cases hc.symm.trans hd
  rw [CtxState.place_eq_queue.1 hp] at hst; cases hst

end PointsConsistent

/-! ### One record moves at its point -/

/-- From `s` to `t` the record at `i`, whose point is `p`, has become `d`, and no other record, point or setting has changed. -/
structure Rewrites (s t : State) (p : PointIx) (i : CtxIx) (d : Context) : Prop where
  record : t.context i = some d
  place : d.point = p
  others : ∀ j, j ≠ i → t.context j = s.context j
  points : ∀ q, q ≠ p → t.point q = s.point q
  outstanding : ∀ q, q ≠ p → t.isOutstanding q = s.isOutstanding q

namespace Rewrites

variable {p : PointIx} {i : CtxIx} {d : Context}

theorem of_put {x : Point} (hd : d.point = p) (hc : t.contexts = put s.contexts i (some d)) (hp : t.points = put s.points p x)
    (ho : ∀ q, q ≠ p → t.isOutstanding q = s.isOutstanding q) : Rewrites s t p i d where
  record := by simp [State.context, hc]
  place := hd
  others j hj := by simp only [State.context, hc, Fin.getElem_fin]; exact put_get_ne _ _ (Ne.symm hj)
  points q hq := by simp only [State.point, hp, Fin.getElem_fin]; exact put_get_ne _ _ (Ne.symm hq)
  outstanding := ho

theorem seat_self (R : Rewrites s t p i d) : t.seat i = d.state.place.map (Prod.mk p) := by
  rw [State.seat_of_context R.record, R.place]

theorem seat_other (R : Rewrites s t p i d) {j : CtxIx} (hj : j ≠ i) : t.seat j = s.seat j := State.seat_congr (R.others j hj)

/-- The other points stand as they were. -/
theorem elsewhere (R : Rewrites s t p i d) {c : Context} (hc : s.context i = some c) (hp : c.point = p) {q : PointIx}
    (hq : q ≠ p) (h : PointAgrees s q) : PointAgrees t q := by
  refine h.congr (by rw [R.points q hq]; exact .refl _) (R.outstanding q hq) (fun j x => ?_) fun j e he hep hea => ?_
  · by_cases e : j = i
    · subst e
      simp only [State.seat_eq_some, hc, R.record, Option.some.injEq]
      constructor
      · rintro ⟨_, rfl, hx, -⟩; exact absurd (hx.symm.trans R.place) hq
      · rintro ⟨_, rfl, hx, -⟩; exact absurd (hx.symm.trans hp) hq
    · rw [R.seat_other e]
  · by_cases hj : j = i
    · subst hj; cases R.record.symm.trans he; exact absurd (hep.symm.trans R.place) hq
    · exact ⟨e, (R.others j hj).symm.trans he, hep, hea, rfl⟩

end Rewrites

theorem mem_erase_append {l : List CtxIx} (hn : l.Nodup) {i j : CtxIx} {b : Prop} [Decidable b] :
    j ∈ l.erase i ++ (if b then [i] else []) ↔ if j = i then b else j ∈ l := by
  by_cases hj : j = i <;> by_cases hb : b <;> simp [hn.mem_erase_iff, hj, hb]

theorem nodup_erase_append {l : List CtxIx} (hn : l.Nodup) {i : CtxIx} {b : Prop} [Decidable b] :
    (l.erase i ++ if b then [i] else []).Nodup := by
  split
  · refine List.nodup_append.2 ⟨hn.erase i, List.nodup_singleton i, fun x hx y hy => ?_⟩
    rw [List.mem_singleton.1 hy]
    exact ((hn.mem_erase_iff).1 hx).1
  · simpa using hn.erase i

/-- A context that does not hold the lock leaves its point's lists, and joins the tail of the one that its new state gives it; the turn
in progress goes on. -/
theorem PointsConsistent.moved {p : PointIx} {i : CtxIx} {c d : Context} (h : PointsConsistent s) (hc : s.context i = some c)
    (hp : c.point = p) (hst : c.state.holding = false) (R : Rewrites s t p i d) (hd : d.state.holding = false)
    (hpend : d.abortPending = none) {l : Nat} (hpt : t.point p = { s.point p with
      load := l
      line := (s.point p).line.erase i ++ if d.state = .waitBudget then [i] else []
      queue := (s.point p).queue.erase i ++ if d.state.queued then [i] else [] }) (hout : t.isOutstanding p = s.isOutstanding p) :
    PointsConsistent t := by
  refine pointsConsistent_iff.2 fun q => ?_
  by_cases hq : q = p
  swap
  · exact R.elsewhere hc hp hq (h.agrees q)
  subst hq
  have ha := h.agrees q
  have notLock {u : State} {e : Context} (he : u.context i = some e) (hh : e.state.holding = false) (st : CtxState) :
      u.seat i ≠ some (q, .lock st) := by
    rw [State.seat_of_context he]
    intro hx
    obtain ⟨x, hx, hy⟩ := Option.map_eq_some_iff.1 hx
    cases hy
    rw [(CtxState.place_eq_lock.1 hx).1] at hh; cases hh
  have hlock (j : CtxIx) (st : CtxState) : t.seat j = some (q, .lock st) ↔ s.seat j = some (q, .lock st) := by
    by_cases hj : j = i
    · subst hj
      exact iff_of_false (notLock R.record hd st) (notLock hc hst st)
    · rw [R.seat_other hj]
  refine ⟨?_, ?_, fun j => ?_, fun j => ?_, fun j => ?_, fun j st hj => ?_, fun hh => ?_, fun j e he hep hea => ?_⟩
  · rw [hpt]; exact nodup_erase_append ha.line_nodup
  · rw [hpt]; exact nodup_erase_append ha.queue_nodup
  · rw [hpt, mem_erase_append ha.line_nodup]
    split
    next hj =>
      subst hj
      rw [R.seat_self, ← beq_iff_eq, ← CtxState.place_eq_line]
      simp
    next hj => rw [R.seat_other hj]; exact ha.line j
  · rw [hpt, mem_erase_append ha.queue_nodup]
    split
    next hj =>
      subst hj
      rw [R.seat_self, ← CtxState.place_eq_queue]
      simp
    next hj => rw [R.seat_other hj]; exact ha.queue j
  · simp only [hpt, hlock]; exact ha.holder j
  · rw [hpt, hout]; exact ha.turn j st ((hlock j st).1 hj)
  · rw [hpt] at hh ⊢; rw [hout]; exact ha.idle hh
  · by_cases hj : j = i
    · subst hj; cases R.record.symm.trans he; rw [hpend] at hea; cases hea
    · rw [hpt, hout]
      exact ha.pending j e ((R.others j hj).symm.trans he) hep hea

/-- No turn is in progress at a point: no setting is outstanding, and no settle is counted. -/
structure Rested (s : State) (p : PointIx) : Prop where
  outstanding : s.isOutstanding p = false
  settle : (s.point p).settle = 0
  armed : (s.point p).sweepTimer.isSome = false

/-- `i` holds the lock of `p`, and all agrees but for its own record and its turn. -/
structure Held (s : State) (p : PointIx) (i : CtxIx) (c : Context) : Prop where
  record : s.context i = some c
  place : c.point = p
  elsewhere : ∀ q, q ≠ p → PointAgrees s q
  line_nodup : (s.point p).line.Nodup
  queue_nodup : (s.point p).queue.Nodup
  line : ∀ j, j ∈ (s.point p).line ↔ j ≠ i ∧ s.seat j = some (p, .line)
  queue : ∀ j, j ∈ (s.point p).queue ↔ j ≠ i ∧ s.seat j = some (p, .queue)
  holder : (s.point p).holder = some i
  others : ∀ j st, j ≠ i → s.seat j ≠ some (p, .lock st)
  inactive : (s.point p).service.isActive = false
  pending : ∀ j e, j ≠ i → s.context j = some e → e.point = p → e.abortPending = none

/-- The holder of a lock, in a state whose points agree (R59). -/
theorem PointsConsistent.held {p : PointIx} {i : CtxIx} {c : Context} (h : PointsConsistent s)
    (hh : (s.point p).holder = some i) (hc : s.context i = some c) : Held s p i c ∧
      phaseAgrees c.state (s.isOutstanding p) (s.point p).settle (s.point p).sweepTimer.isSome = true := by
  have ha := h.agrees p
  obtain ⟨st, hi⟩ := (ha.holder i).1 hh
  obtain ⟨e, he, hp, hst⟩ := State.seat_eq_some.1 hi
  cases hc.symm.trans he
  obtain ⟨-, rfl⟩ := CtxState.place_eq_lock.1 hst
  obtain ⟨hactive, hphase⟩ := ha.turn i _ hi
  refine ⟨⟨hc, hp, fun q _ => h.agrees q, ha.line_nodup, ha.queue_nodup, fun j => ?_, fun j => ?_, hh, fun j x hj hx => ?_,
    hactive, fun j e hj he hep => ?_⟩, hphase⟩
  · rw [ha.line j]
    refine ⟨fun hj => ⟨?_, hj⟩, fun hj => hj.2⟩
    rintro rfl; rw [hi] at hj; cases hj
  · rw [ha.queue j]
    refine ⟨fun hj => ⟨?_, hj⟩, fun hj => hj.2⟩
    rintro rfl; rw [hi] at hj; cases hj
  · exact hj (Option.some.inj (((ha.holder j).2 ⟨x, hx⟩).symm.trans hh))
  · by_contra hea
    exact hj (Option.some.inj ((ha.pending j e he hep (Option.isSome_iff_ne_none.2 hea)).1.symm.trans hh))

/-- The head of a step queue takes a free lock (R60, R61). -/
theorem PointsConsistent.granted {p : PointIx} {i : CtxIx} {c : Context} {rest : List CtxIx} (h : PointsConsistent s)
    (hq : (s.point p).queue = i :: rest) (hh : (s.point p).holder = none) (hs : (s.point p).service = .none)
    (hc : s.context i = some c) : Held (s.modPoint p fun q => { q with queue := rest, holder := some i }) p i c := by
  have ha := h.agrees p
  have hi : s.seat i = some (p, .queue) := (ha.queue i).1 (by rw [hq]; exact List.mem_cons_self)
  obtain ⟨e, he, hp, -⟩ := State.seat_eq_some.1 hi
  cases hc.symm.trans he
  obtain ⟨hnot, hnodup⟩ := List.nodup_cons.1 (hq ▸ ha.queue_nodup)
  have R : Rewrites s (s.modPoint p fun q => { q with queue := rest, holder := some i }) p i c :=
    ⟨hc, hp, fun _ _ => rfl, fun q hq => by rw [State.modPoint_point, if_neg (Ne.symm hq)], fun _ _ => rfl⟩
  have hseat (j : CtxIx) : (s.modPoint p fun q => { q with queue := rest, holder := some i }).seat j = s.seat j := rfl
  refine ⟨hc, hp, fun q hne => R.elsewhere hc hp hne (h.agrees q), ?_, ?_, fun j => ?_, fun j => ?_, ?_, fun j st _ hj => ?_, ?_,
    fun j e hj he hep => ?_⟩
  · rw [State.modPoint_point_self]; exact ha.line_nodup
  · rw [State.modPoint_point_self]; exact hnodup
  · rw [State.modPoint_point_self, hseat, ha.line j]
    refine ⟨fun hj => ⟨?_, hj⟩, fun hj => hj.2⟩
    rintro rfl; rw [hi] at hj; cases hj
  · rw [State.modPoint_point_self, hseat, ← ha.queue j, hq, List.mem_cons]
    constructor
    · intro hj; exact ⟨fun e => hnot (e ▸ hj), .inr hj⟩
    · rintro ⟨hne, hj⟩; exact hj.resolve_left hne
  · rw [State.modPoint_point_self]
  · have := (ha.holder j).2 ⟨st, hj⟩
    rw [hh] at this; cases this
  · rw [State.modPoint_point_self]; simp only [hs]; rfl
  · by_contra hea
    have := (ha.pending j e he hep (Option.isSome_iff_ne_none.2 hea)).1
    rw [hh] at this; cases this

namespace Held

variable {p : PointIx} {i : CtxIx} {c d : Context}

/-- The holder's record and its turn change, and whatever lies outside. -/
theorem update (h : Held s p i c) (R : Rewrites s t p i d) (hline : (t.point p).line = (s.point p).line)
    (hqueue : (t.point p).queue = (s.point p).queue) (hholder : (t.point p).holder = (s.point p).holder)
    (hactive : (t.point p).service.isActive = (s.point p).service.isActive) : Held t p i d where
  record := R.record
  place := R.place
  elsewhere q hq := R.elsewhere h.record h.place hq (h.elsewhere q hq)
  line_nodup := by rw [hline]; exact h.line_nodup
  queue_nodup := by rw [hqueue]; exact h.queue_nodup
  line j := by
    rw [hline, h.line j]
    exact and_congr_right fun hj => by rw [R.seat_other hj]
  queue j := by
    rw [hqueue, h.queue j]
    exact and_congr_right fun hj => by rw [R.seat_other hj]
  holder := by rw [hholder]; exact h.holder
  others j st hj := by rw [R.seat_other hj]; exact h.others j st hj
  inactive := by rw [hactive]; exact h.inactive
  pending j e hj he := h.pending j e hj ((R.others j hj).symm.trans he)

/-- A change beside the engines leaves the holder where it is. -/
theorem quiet (h : Held s p i c) (hq : Quiet s t) (hd : t.context i = some d) : Held t p i d where
  record := hd
  place := by
    obtain ⟨e, he, hed⟩ := hq.some_of_context h.record
    cases hd.symm.trans he
    rw [Context.point, hed.sides]; exact h.place
  elsewhere q hne := hq.pointAgrees (h.elsewhere q hne)
  line_nodup := by rw [(hq.points p).line]; exact h.line_nodup
  queue_nodup := by rw [(hq.points p).queue]; exact h.queue_nodup
  line j := by rw [(hq.points p).line, hq.seat]; exact h.line j
  queue j := by rw [(hq.points p).queue, hq.seat]; exact h.queue j
  holder := by rw [(hq.points p).holder]; exact h.holder
  others j st hj := by rw [hq.seat]; exact h.others j st hj
  inactive := by rw [(hq.points p).active]; exact h.inactive
  pending j e hj he hp := by
    obtain ⟨x, hx, hxe⟩ := hq.context_of_some he
    rw [hxe.abortPending]
    exact h.pending j x hj hx (by rw [← hp, Context.point, Context.point, hxe.sides])

/-- The turn of the holder stands as its state says. -/
theorem turn (h : Held s p i c)
    (hphase : phaseAgrees c.state (s.isOutstanding p) (s.point p).settle (s.point p).sweepTimer.isSome = true)
    (hpend : c.abortPending.isSome = true → s.isOutstanding p = true ∧ c.state.backoffs.isSome = true) :
    PointsConsistent s := by
  refine pointsConsistent_iff.2 fun q => ?_
  by_cases hq : q = p
  swap
  · exact h.elsewhere q hq
  subst hq
  have hi : s.seat i = some (q, .lock c.state) :=
    State.seat_eq_some.2 ⟨c, h.record, h.place, CtxState.place_eq_lock.2 ⟨holding_of_phaseAgrees hphase, rfl⟩⟩
  refine ⟨h.line_nodup, h.queue_nodup, fun j => ?_, fun j => ?_, fun j => ?_, fun j st hj => ?_, fun hh => ?_,
    fun j e he hep hea => ?_⟩
  · rw [h.line j]
    refine ⟨fun hj => hj.2, fun hj => ⟨?_, hj⟩⟩
    rintro rfl; rw [hi] at hj; cases hj
  · rw [h.queue j]
    refine ⟨fun hj => hj.2, fun hj => ⟨?_, hj⟩⟩
    rintro rfl; rw [hi] at hj; cases hj
  · rw [h.holder]
    constructor
    · rintro hj; cases hj; exact ⟨_, hi⟩
    · rintro ⟨st, hj⟩
      by_contra hne
      exact h.others j st (fun e => hne (congrArg some e.symm)) hj
  · by_cases hne : j = i
    · subst hne; rw [hi] at hj; cases hj; exact ⟨h.inactive, hphase⟩
    · exact absurd hj (h.others j st hne)
  · rw [h.holder] at hh; cases hh
  · by_cases hne : j = i
    · subst hne; cases h.record.symm.trans he; exact ⟨h.holder, hpend hea⟩
    · rw [h.pending j e hne he hep] at hea; cases hea

/-- The holder gives the lock up: its turn is over, and it is listed nowhere or at the tail of the step queue. -/
theorem leave (h : Held s p i c) (R : Rewrites s t p i d) (hd : d.state.place = none ∨ d.state.queued = true)
    (hpend : d.abortPending = none) (hrest : Rested s p) {l : Nat} (hpt : t.point p = { s.point p with
      load := l, queue := (s.point p).queue ++ if d.state.queued then [i] else [], holder := none })
    (hout : t.isOutstanding p = s.isOutstanding p) :
    PointsConsistent t := by
  refine pointsConsistent_iff.2 fun q => ?_
  by_cases hq : q = p
  swap
  · exact R.elsewhere h.record h.place hq (h.elsewhere q hq)
  subst hq
  have hnot {x : Place} (hx : t.seat i = some (q, x)) : x = .queue ∧ d.state.queued = true := by
    rw [R.seat_self] at hx
    obtain ⟨y, hy, hyx⟩ := Option.map_eq_some_iff.1 hx
    cases hyx
    rcases hd with hd | hd
    · rw [hd] at hy; cases hy
    · rw [CtxState.place_eq_queue.2 hd] at hy; cases hy; exact ⟨rfl, hd⟩
  have hlock (j : CtxIx) (st : CtxState) : t.seat j ≠ some (q, .lock st) := by
    intro hj
    by_cases hne : j = i
    · subst hne; cases (hnot hj).1
    · rw [R.seat_other hne] at hj; exact h.others j st hne hj
  have hi : i ∉ (s.point q).queue := fun hi => ((h.queue i).1 hi).1 rfl
  have hil : i ∉ (s.point q).line := fun hi => ((h.line i).1 hi).1 rfl
  refine ⟨?_, ?_, fun j => ?_, fun j => ?_, fun j => ?_, fun j st hj => absurd hj (hlock j st), fun _ => ?_, fun j e he hep hea => ?_⟩
  · rw [hpt]; exact h.line_nodup
  · rw [hpt, ← List.erase_of_not_mem hi]; exact nodup_erase_append h.queue_nodup
  · rw [hpt, h.line j]
    by_cases hne : j = i
    · subst hne
      exact iff_of_false (fun hj => hj.1 rfl) fun hj => by cases (hnot hj).1
    · rw [R.seat_other hne]; exact and_iff_right hne
  · rw [hpt, ← List.erase_of_not_mem hi, mem_erase_append h.queue_nodup]
    split
    next hne =>
      subst hne
      exact ⟨fun hx => State.seat_eq_some.2 ⟨d, R.record, R.place, CtxState.place_eq_queue.2 hx⟩, fun hx => (hnot hx).2⟩
    next hne => rw [R.seat_other hne, h.queue j]; exact and_iff_right hne
  · rw [hpt]
    exact iff_of_false nofun fun ⟨st, hj⟩ => hlock j st hj
  · rw [hpt, hout, hrest.outstanding]; exact ⟨h.inactive.symm, hrest.settle, hrest.armed⟩
  · by_cases hne : j = i
    · subst hne; cases R.record.symm.trans he; rw [hpend] at hea; cases hea
    · rw [h.pending j e hne ((R.others j hne).symm.trans he) hep] at hea; cases hea

end Held
end Sys2Proof.Machine
end

section
/-! ## The engines' operations keep the points in agreement -/

namespace Sys2Proof.Machine

variable {s t : State} {p : PointIx} {i : CtxIx} {c d : Context}

theorem State.offerSetting_isOutstanding (s : State) (p q : PointIx) (r : Run) (b : SettingBody) :
    (s.offerSetting p r b).isOutstanding q = if p = q then true else s.isOutstanding q := by
  unfold State.isOutstanding
  rw [State.offerSetting_outstanding]
  split <;> rfl

theorem put_self {α : Type} {n : Nat} (v : Vector α n) (i : Fin n) : put v i v[i] = v := by simp [put]

theorem State.discharge_eq_modPoint (s : State) (c : Context) :
    s.discharge c = s.modPoint c.point fun q => { q with load := q.load - c.charge.getD 0 } := by
  unfold State.discharge
  cases c.charge with
  | some q => rfl
  | none => exact congrArg (fun v => ({ s with points := v } : State)) (put_self s.points c.point).symm

theorem State.points_eq_put_point (s : State) (p : PointIx) : s.points = put s.points p (s.point p) := (put_self _ _).symm

/-- A context that never lit has ended, up to the admission attempt that may follow (R89). -/
def State.endedNeverLit (s : State) (i : CtxIx) (c : Context) (e : Ending) : State :=
  (((s.modPoint c.point fun q => { q with line := q.line.erase i, queue := q.queue.erase i }).discharge c).writeRun
    c.sides.mapsUsed c.run .free).endRecord i c e

theorem State.endNeverLit_eq (s : State) (i : CtxIx) (c : Context) (e : Ending) : s.endNeverLit i c e =
    if i ∈ (s.point c.point).line ∨ c.charge ≠ none then (s.endedNeverLit i c e).attempt c.point else s.endedNeverLit i c e := by
  unfold State.endNeverLit State.endedNeverLit
  simp only [Bool.or_eq_true, List.contains_iff_mem, Option.isSome_iff_ne_none]

theorem Context.turned_point (c : Context) (m : Mode) : (c.turned m).point = c.point := by cases m <;> rfl

theorem PointsConsistent.rested (h : PointsConsistent s) (hh : (s.point p).holder = none) (hs : (s.point p).service.isActive = false) :
    Rested s p := by
  obtain ⟨ho, hsettle, harmed⟩ := (h.agrees p).idle hh
  exact ⟨ho.trans hs, hsettle, harmed⟩

/-- An abort is pending only while the setting of a ramping holder is outstanding (R75). -/
theorem PointsConsistent.pending_of_some (h : PointsConsistent s) (hc : s.context i = some c) (ha : c.abortPending.isSome = true) :
    s.isOutstanding c.point = true ∧ c.state.backoffs.isSome = true :=
  ((h.agrees c.point).pending i c hc rfl ha).2

/-! ### Turns of the holder -/

namespace Held

/-- The holder's record is written again; its turn is not touched. -/
theorem setContext (h : Held s p i c) (hd : d.point = p) : Held (s.setContext i (some d)) p i d :=
  h.update (.of_put hd rfl (s.points_eq_put_point p) fun _ _ => rfl) rfl rfl rfl rfl

/-- The turn changes at its point; the lists and the lock do not. -/
theorem modPoint (h : Held s p i c) {f : Point → Point} (hl : (f (s.point p)).line = (s.point p).line)
    (hq : (f (s.point p)).queue = (s.point p).queue) (hh : (f (s.point p)).holder = (s.point p).holder)
    (ha : (f (s.point p)).service.isActive = (s.point p).service.isActive) : Held (s.modPoint p f) p i c := by
  have R : Rewrites s (s.modPoint p f) p i c := ⟨h.record, h.place, fun _ _ => rfl,
    fun q hq => by rw [State.modPoint_point, if_neg (Ne.symm hq)], fun _ _ => rfl⟩
  apply h.update R <;> rwa [State.modPoint_point_self]

theorem stopCounting (h : Held s p i c) : Held (s.stopCounting p) p i c := h.modPoint rfl rfl rfl rfl

/-- The holder sends a setting, with no settle counted (R63, R69, R81, R85). -/
theorem send (h : Held s p i c) (hd : d.point = p) (hsettle : (s.point p).settle = 0)
    (harmed : (s.point p).sweepTimer.isSome = false) (hst : phaseAgrees d.state true 0 false = true)
    (hpend : d.abortPending.isSome = true → d.state.backoffs.isSome = true) (r : Run) (b : SettingBody) :
    PointsConsistent ((s.setContext i (some d)).offerSetting p r b) := by
  have hout := (s.setContext i (some d)).offerSetting_isOutstanding p p r b
  rw [if_pos rfl] at hout
  have R : Rewrites s ((s.setContext i (some d)).offerSetting p r b) p i d :=
    .of_put hd rfl (s.points_eq_put_point p) fun q hq => by
      rw [State.offerSetting_isOutstanding, if_neg (Ne.symm hq)]; rfl
  refine (h.update R rfl rfl rfl rfl).turn ?_ fun ha => ⟨hout, hpend ha⟩
  have hpoint : ((s.setContext i (some d)).offerSetting p r b).point p = s.point p := rfl
  rw [hout, hpoint, hsettle, harmed]
  exact hst

/-- The holder's settle is counted (R64, R65, R69, R82). -/
theorem count (h : Held s p i c) (hout : s.isOutstanding p = false) {n : Nat} (hst : phaseAgrees c.state false n true = true)
    (hpend : c.abortPending = none) : PointsConsistent (s.armSettle p n) := by
  refine (h.modPoint rfl rfl rfl rfl : Held (s.armSettle p n) p i c).turn ?_ fun ha => by rw [hpend] at ha; cases ha
  rw [State.modPoint_point_self]
  exact (congrArg (phaseAgrees c.state · n true) hout).trans hst

theorem turnBegun (h : Held s p i c) (hsettle : (s.point p).settle = 0) (harmed : (s.point p).sweepTimer.isSome = false)
    (hpend : c.abortPending = none) (m : Mode) : PointsConsistent (s.turnBegun p i c m) := by
  refine h.send (d := { c.turned m with state := .retiring m .actuating }) ((c.turned_point m).trans h.place) hsettle harmed
    (by cases m <;> rfl) (fun ha => ?_) _ _
  rw [show ({ c.turned m with state := .retiring m .actuating } : Context).abortPending = none by cases m <;> exact hpend] at ha
  cases ha

/-- The holder's counting, its setting and its abort mark are given up as it enters RETIRING (R72, R75, R76, R79). -/
theorem retireHolder (h : Held s p i c) (e : Ending) (m : Mode) : PointsConsistent (s.retireHolder p i c e m) := by
  rw [State.retireHolder_eq]
  refine PointsConsistent.congr (h.stopCounting.send (d := { c.turned m with
    abortPending := none, ending := some e, state := .retiring m .actuating, watchTimer := none })
    ((c.turned_point m).trans h.place) ?_ ?_ (by cases m <;> rfl) nofun c.run (c.turned m).turnSetting) rfl rfl rfl
  · simp [State.stopCounting]
  · simp [State.stopCounting]

theorem rampFault (h : Held s p i c) (f : Cause) : PointsConsistent (s.rampFault p i c f) := by
  have hup := h.quiet (Quiet.offerTo s c.sides.upstream c.lightpathId (.abort f s.nodeId)) (by simpa [State.context] using h.record)
  have hdown := hup.quiet (Quiet.offerTo _ c.sides.downstream c.lightpathId (.abort f s.nodeId))
    (by simpa [State.context] using hup.record)
  exact hdown.retireHolder _ _

theorem forwardStep (h : Held s p i c) (hr : Rested s p) (n a : Nat) : PointsConsistent (s.forwardStep p i c n a) :=
  h.send (d := { c with journal := _, attenuation := _, state := .ramping .actuating n }) h.place hr.settle hr.armed rfl
    (fun _ => rfl) _ _

/-- A settle hands its context on and releases the lock (R70). -/
theorem settled (h : Held s p i c) (hr : Rested s p) (hpend : c.abortPending = none) {x : RampSub} {n : Nat}
    (hst : c.state = .ramping x n) {st : CtxState} (hnew : st = .inService ∨ st = .passed) :
    PointsConsistent (s.settled p i c st) := by
  have hq : Quiet s (s.refreshReferences p) := .mapContexts (Context.refresh_alike p)
  have hrefresh : (s.refreshReferences p).context i = some c := by
    rw [State.refreshReferences, State.mapContexts_context, h.record, Option.map_some,
      Context.refresh, if_neg (by simp [Context.refreshable, Context.settled, hst])]
  have hout := hq.isOutstanding p
  refine (h.quiet hq hrefresh).leave (t := s.settled p i c st) (l := (s.point p).load)
    (.of_put (d := { c with state := st, reference := _, watchTimer := _ }) h.place rfl rfl fun _ _ => rfl)
    ?_ hpend ⟨hr.outstanding, hr.settle, hr.armed⟩ ?_ rfl
  · rcases hnew with rfl | rfl <;> exact .inl rfl
  · rw [State.settled_point, if_pos rfl]
    rcases hnew with rfl | rfl <;> simp [CtxState.queued, State.point]

theorem settleTurn (h : Held s p i c) (hr : Rested s p) (hpend : c.abortPending = none) {x : RampSub} {n : Nat}
    (hst : c.state = .ramping x n) : PointsConsistent (s.settleTurn p i c) := by
  rw [State.settleTurn_eq]
  split
  · exact ((h.settled hr hpend hst (.inl rfl)).quiet (.writeRun _ _ _ _)).quiet (.offerTo _ _ _ _)
  · exact (h.settled hr hpend hst (.inr rfl)).quiet (.offerTo _ _ _ _)

end Held

theorem State.settleTurn_point (s : State) (p q : PointIx) (i : CtxIx) (c : Context) :
    (s.settleTurn p i c).point q = if p = q then { s.point p with holder := none } else s.point q := by
  rw [State.settleTurn_eq]
  split
  · rw [← State.settled_point s p q i c .inService]; simp [State.point]
  · rw [← State.settled_point s p q i c .passed]; simp [State.point]

/-! ### Grants and admissions -/

theorem CtxState.not_holding_of_queued {st : CtxState} (h : st.queued = true) : st.holding = false := by
  unfold CtxState.queued at h
  split at h
  · rfl
  · rfl
  · cases h

namespace PointsConsistent

theorem grantLoop (l : List CtxIx) (h : PointsConsistent s) (hq : (s.point p).queue = l) (hh : (s.point p).holder = none)
    (hs : (s.point p).service = .none) : PointsConsistent (State.grantLoop p l s) := by
  induction l generalizing s with
  | nil => exact h
  | cons i rest ih =>
    unfold State.grantLoop
    split
    · exact h
    next c hc =>
      dsimp only
      have held := h.granted hq hh hs hc
      have rested : Rested (s.modPoint p fun q => { q with queue := rest, holder := some i }) p := by
        obtain ⟨ho, hsettle, harmed⟩ := h.rested hh (by rw [hs]; rfl)
        exact ⟨ho, by rw [State.modPoint_point_self]; exact hsettle, by rw [State.modPoint_point_self]; exact harmed⟩
      have hpend : c.abortPending = none := by
        obtain ⟨d, hd, -, hx⟩ := State.seat_eq_some.1 (((h.agrees p).queue i).1 (by rw [hq]; exact List.mem_cons_self))
        cases hc.symm.trans hd
        exact h.abortPending_eq_none hc (CtxState.not_holding_of_queued (CtxState.place_eq_queue.1 hx))
      split
      next hst =>
        split
        · exact h
        · exact held.forwardStep rested _ _
        · exact held.forwardStep rested _ _
        · refine ih (held.settleTurn rested hpend hst) ?_ ?_ ?_ <;>
            rw [State.settleTurn_point, if_pos rfl, State.modPoint_point_self]
          exact hs
        · exact held.rampFault _
      next =>
        rw [State.retireTurn_eq _ held.record]
        exact held.turnBegun rested.settle rested.armed hpend _
      all_goals exact h

/-- A turn without a holder begins or ends: the service request's (R92). -/
theorem holderless (h : PointsConsistent s) (hh : (s.point p).holder = none) {x : Service}
    (hc : t.contexts = s.contexts) (hpt : ∀ q, q ≠ p → t.point q = s.point q) {o : Option SettingOutcome}
    (hp : t.point p = { s.point p with service := x, lastService := o }) (ho : ∀ q, q ≠ p → t.isOutstanding q = s.isOutstanding q)
    (hout : t.isOutstanding p = x.isActive) : PointsConsistent t := by
  have hseat (j : CtxIx) : t.seat j = s.seat j := by simp only [State.seat, State.context, hc]
  have hctx (j : CtxIx) : t.context j = s.context j := by simp only [State.context, hc]
  refine pointsConsistent_iff.2 fun q => ?_
  have ha := h.agrees q
  by_cases hq : q = p
  · subst hq
    refine ⟨by rw [hp]; exact ha.line_nodup, by rw [hp]; exact ha.queue_nodup, fun j => by rw [hp, hseat]; exact ha.line j,
      fun j => by rw [hp, hseat]; exact ha.queue j, fun j => by simp only [hp, hseat]; exact ha.holder j, fun j st hj => ?_,
      fun _ => ?_, fun j e he hep hea => ?_⟩
    · have := (ha.holder j).2 ⟨st, by rw [← hseat]; exact hj⟩
      rw [hh] at this; cases this
    · obtain ⟨-, hsettle, harmed⟩ := ha.idle hh
      rw [hp]; exact ⟨hout, hsettle, harmed⟩
    · have := (ha.pending j e (by rw [← hctx]; exact he) hep hea).1
      rw [hh] at this; cases this
  · exact ha.congr (by rw [hpt q hq]; exact .refl _) (ho q hq) (fun j y => by rw [hseat])
      fun j e he hep hea => ⟨e, by rw [← hctx]; exact he, hep, hea, rfl⟩

theorem serviceTurn (h : PointsConsistent s) (hh : (s.point p).holder = none) (r : Run) : PointsConsistent (s.serviceTurn p r) := by
  refine h.holderless hh (x := .active r) (o := (s.point p).lastService) rfl (fun q hq => ?_) ?_ (fun q hq => ?_) ?_
  · exact (s.modPoint_point p q fun y => { y with service := .active r }).trans (if_neg (Ne.symm hq))
  · exact s.modPoint_point_self p fun y => { y with service := .active r }
  · rw [State.serviceTurn, State.offerSetting_isOutstanding, if_neg (Ne.symm hq)]; rfl
  · rw [State.serviceTurn, State.offerSetting_isOutstanding, if_pos rfl]; rfl

theorem grant (h : PointsConsistent s) (p : PointIx) : PointsConsistent (s.grant p) := by
  unfold State.grant
  split
  next hfree =>
    have hh : (s.point p).holder = none := by
      unfold Point.lockFree at hfree
      rw [Bool.and_eq_true, Option.isNone_iff_eq_none] at hfree
      exact hfree.1
    split
    · exact h.serviceTurn hh _
    · exact h
    next hs => exact h.grantLoop _ rfl hh hs
  · exact h

/-- A context that holds no lock is written in another state that holds none, and its point's lists follow. -/
theorem relisted {x : Point} {l : Nat} (h : PointsConsistent s) (hc : s.context i = some c) (hst : c.state.holding = false)
    (hdp : d.point = c.point) (hd : d.state.holding = false) (hpend : d.abortPending = none)
    (hctx : t.contexts = put s.contexts i (some d)) (hpts : t.points = put s.points c.point x) (ho : t.outstanding = s.outstanding)
    (hx : x = { s.point c.point with
      load := l
      line := (s.point c.point).line.erase i ++ if d.state = .waitBudget then [i] else []
      queue := (s.point c.point).queue.erase i ++ if d.state.queued then [i] else [] }) : PointsConsistent t := by
  have hout (q : PointIx) : t.isOutstanding q = s.isOutstanding q := by simp only [State.isOutstanding, ho]
  refine h.moved hc rfl hst (.of_put hdp hctx hpts fun q _ => hout q) hd hpend (l := l) ?_ (hout _)
  rw [← hx, State.point, hpts]
  exact put_get_self _ _ _

/-- The head of the line is admitted to the tail of the step queue (R56). -/
theorem admitOne {rest : List CtxIx} (h : PointsConsistent s) (hl : (s.point p).line = i :: rest) (hc : s.context i = some c)
    (hst : c.state = .waitBudget) : PointsConsistent (s.admitOne p i rest c) := by
  obtain ⟨d, hd, hp, -⟩ := State.seat_eq_some.1 (((h.agrees p).line i).1 (by rw [hl]; exact List.mem_cons_self))
  cases hc.symm.trans hd
  subst hp
  have hpend := h.abortPending_eq_none hc (by rw [hst]; rfl)
  refine h.relisted (d := { c with
      charge := some (chargeOf c.target c.window), step := c.baseStep, state := .ramping .queued 0, watchTimer := none }) hc
    (by rw [hst]; rfl) rfl rfl hpend rfl rfl rfl (l := (s.point c.point).load + chargeOf c.target c.window) ?_
  rw [hl, List.erase_cons_head, List.erase_of_not_mem (h.not_mem_queue hc (by rw [hst]; rfl) _)]
  simp [CtxState.queued, State.point]

theorem admitLoop (l : List CtxIx) (h : PointsConsistent s) (hl : (s.point p).line = l) : PointsConsistent (State.admitLoop p l s) := by
  induction l generalizing s with
  | nil => exact h
  | cons i rest ih =>
    unfold State.admitLoop
    split
    · exact h
    next c hc =>
      split
      next hw => exact ih (h.admitOne hl hc hw.1) (by rw [State.admitOne_point, if_pos rfl])
      · exact h

theorem attempt (h : PointsConsistent s) (p : PointIx) : PointsConsistent (s.attempt p) := (h.admitLoop _ rfl).grant p

theorem joinLine (h : PointsConsistent s) (hc : s.context i = some c) (hst : c.state = .reserved) :
    PointsConsistent (s.joinLine i c) := by
  have hpend := h.abortPending_eq_none hc (by rw [hst]; rfl)
  have hjoined : PointsConsistent ((s.enter i c .waitBudget).modPoint c.point fun q => { q with line := q.line ++ [i] }) := by
    refine h.relisted (d := { c with state := .waitBudget, watchTimer := watchLoad s.timing c .waitBudget }) hc
      (by rw [hst]; rfl) rfl rfl hpend rfl rfl rfl (l := (s.point c.point).load) ?_
    rw [List.erase_of_not_mem (h.not_mem_queue hc (by rw [hst]; rfl) _),
      List.erase_of_not_mem (h.not_mem_line hc (by rw [hst]; nofun) _)]
    simp [CtxState.queued, State.point]
  exact hjoined.attempt _

theorem retireAtTail (h : PointsConsistent s) (hc : s.context i = some c) (hst : c.state = .passed ∨ c.state = .inService)
    (e : Ending) (m : Mode) : PointsConsistent (s.retireAtTail i c e m) := by
  have hhold : c.state.holding = false := by rcases hst with h | h <;> rw [h] <;> rfl
  have hpend := h.abortPending_eq_none hc hhold
  have hqueued : PointsConsistent ((s.enter i { c with ending := some e } (.retiring m .queued)).modPoint c.point fun q =>
      { q with queue := q.queue ++ [i] }) := by
    refine h.relisted (d := { c with ending := some e, state := .retiring m .queued, watchTimer := none }) hc hhold rfl rfl hpend
      rfl rfl rfl (l := (s.point c.point).load) ?_
    rw [List.erase_of_not_mem (h.not_mem_queue hc (by rcases hst with h | h <;> rw [h] <;> rfl) _),
      List.erase_of_not_mem (h.not_mem_line hc (by rcases hst with h | h <;> rw [h] <;> nofun) _)]
    simp [CtxState.queued, State.point]
  exact hqueued.grant _

/-! ### Endings and aborts -/

theorem endNeverLit (h : PointsConsistent s) (hc : s.context i = some c) (hst : c.state.holding = false) (e : Ending) :
    PointsConsistent (s.endNeverLit i c e) := by
  have hend : PointsConsistent (s.endedNeverLit i c e) := by
    rw [State.endedNeverLit, State.discharge_eq_modPoint, State.modPoint_modPoint, State.writeRun_eq]
    refine h.relisted (d := { c with
        charge := none, lastMeasured := none, reference := none, abortPending := none, ending := some e, state := .ended
        watchTimer := none }) hc hst rfl rfl rfl rfl rfl rfl (l := (s.point c.point).load - c.charge.getD 0) ?_
    simp [CtxState.queued, State.point]
  rw [State.endNeverLit_eq]
  split
  · exact hend.attempt _
  · exact hend

/-- A record that its point lists nowhere stays unlisted in another state, or as it is created or freed (R27, R31, R103). -/
theorem unlisted (h : PointsConsistent s) (hj : ∀ j, i ≠ j → t.context j = s.context j)
    (hi : ∀ c ∈ s.context i, c.state.place = none)
    (ht : ∀ d ∈ t.context i, d.state.place = none ∧ d.abortPending = none) (hp : t.points = s.points)
    (ho : t.outstanding = s.outstanding) : PointsConsistent t := by
  have hseat {u : State} (hu : ∀ c ∈ u.context i, c.state.place = none) : u.seat i = none := by
    cases hc : u.context i with
    | none => simp [State.seat, hc]
    | some c => rw [State.seat_of_context hc, hu c hc]; rfl
  exact h.inPlace hj ((hseat fun d hd => (ht d hd).1).trans (hseat hi).symm) (fun d hd => (ht d hd).2) hp ho

theorem abortEffect (h : PointsConsistent s) (hc : s.context i = some c) (e : Ending) : PointsConsistent (s.abortEffect i c e) := by
  unfold State.abortEffect
  split
  next hst => exact h.endNeverLit hc (by rw [hst]; rfl) e
  next hst => exact h.endNeverLit hc (by rw [hst]; rfl) e
  next hst => exact h.endNeverLit hc (by rw [hst]; rfl) e
  next hst =>
    split
    · exact h.endNeverLit hc (by rw [hst]; rfl) e
    · have hpend := h.abortPending_eq_none hc (by rw [hst]; rfl)
      refine h.inPlace (i := i) (fun j hj => ?_) ?_ (fun d hd => ?_) rfl rfl
      · rw [State.enter_context, if_neg hj]
      · rw [State.seat_of_context ((State.enter_context _ _ _ _ _).trans (if_pos rfl)), State.seat_of_context hc, hst]; rfl
      · rw [State.enter_context, if_pos rfl] at hd
        cases hd; exact hpend
  next x n hnq hst =>
    have hh : (s.point c.point).holder = some i := by
      refine ((h.agrees c.point).holder i).2 ⟨c.state, State.seat_eq_some.2 ⟨c, hc, rfl, CtxState.place_eq_lock.2 ⟨?_, rfl⟩⟩⟩
      rw [hst]
      cases x with
      | queued => exact (hnq rfl).elim
      | actuating | settling | backoff => rfl
    obtain ⟨held, hphase⟩ := h.held hh hc
    split
    next hout => exact (held.setContext (d := { c with abortPending := some e }) rfl).turn hphase fun _ => ⟨hout, by rw [hst]; rfl⟩
    · exact held.retireHolder _ _
  next hst => exact h.retireAtTail hc (.inl hst) _ _
  next hst => exact h.retireAtTail hc (.inr hst) _ _
  · exact h
  · exact h

end PointsConsistent

/-! ### Measurements -/

namespace Held

/-- The holder's turn ends, and it queues again (R69, R71, R83). -/
theorem requeue (h : Held s p i c) (hr : Rested s p) (hpend : c.abortPending = none) {st : CtxState} (hst : st.queued = true) :
    PointsConsistent (s.requeue p i c st) := by
  have hqueued : PointsConsistent ((s.setContext i (some { c with state := st })).modPoint p fun q =>
      { q with holder := none, queue := q.queue ++ [i] }) := by
    refine h.leave (d := { c with state := st }) (l := (s.point p).load)
      (.of_put (x := { s.point p with holder := none, queue := (s.point p).queue ++ [i] }) h.place rfl rfl fun _ _ => rfl)
      (.inr hst) hpend hr ?_ rfl
    rw [State.modPoint_point_self, if_pos hst]; rfl
  exact hqueued.grant p

theorem violation (h : Held s p i c) (hr : Rested s p) (n : Nat) : PointsConsistent (s.violation p i c n) := by
  unfold State.violation
  split
  · exact h.rampFault _
  · split
    · exact h.send (d := { c with journal := _, attenuation := _, step := _, state := .ramping .backoff (n + 1) }) h.place hr.settle
        hr.armed rfl (fun _ => rfl) _ _
    · exact h.rampFault _
    · exact h.rampFault _

theorem measureForward (h : Held s p i c) (hr : Rested s p) (hpend : c.abortPending = none) {x : RampSub} {n : Nat}
    (hst : c.state = .ramping x n) (hm : c.lastMeasured.isSome = true) : PointsConsistent (s.measureForward p i c n) := by
  unfold State.measureForward
  split
  · exact h.violation hr n
  · split
    next hnone => rw [hnone] at hm; cases hm
    · split
      · exact (h.settleTurn hr hpend hst).grant p
      · exact h.rampFault _
      · exact h.requeue hr hpend rfl

theorem measureBackoff (h : Held s p i c) (hr : Rested s p) (hpend : c.abortPending = none) (n : Nat) :
    PointsConsistent (s.measureBackoff p i c n) := by
  unfold State.measureBackoff
  split
  · exact h.violation hr n
  · exact h.requeue hr hpend rfl

end Held

theorem Rested.stopCounting (h : s.isOutstanding p = false) : Rested (s.stopCounting p) p where
  outstanding := h
  settle := by simp [State.stopCounting]
  armed := by simp [State.stopCounting]

/-- A turn waits for its setting, or it counts a settle with the sweep timer armed (R24, R52). -/
theorem phaseAgrees_cases {st : CtxState} {o a : Bool} {n : Nat} (h : phaseAgrees st o n a = true) :
    (o = true ∧ n = 0 ∧ a = false) ∨ (o = false ∧ (n = 1 ∨ n = 2) ∧ a = true) := by
  unfold phaseAgrees at h
  split at h <;> simp_all [and_assoc]

/-- While a settle is counted, no setting is outstanding (R52). -/
theorem phaseAgrees_counting {st : CtxState} {o a : Bool} {n : Nat} (h : phaseAgrees st o (n + 1) a = true) :
    o = false ∧ a = true ∧ n ≤ 1 := by
  rcases phaseAgrees_cases h with ⟨-, hn, -⟩ | ⟨ho, hn, ha⟩
  · omega
  · exact ⟨ho, ha, by omega⟩

/-- While a setting is outstanding, no settle is counted (R52). -/
theorem phaseAgrees_outstanding {st : CtxState} {a : Bool} {n : Nat} (h : phaseAgrees st true n a = true) : n = 0 ∧ a = false := by
  rcases phaseAgrees_cases h with ⟨-, hn, ha⟩ | ⟨ho, -, -⟩
  · exact ⟨hn, ha⟩
  · cases ho

theorem PointsConsistent.countSweep (h : PointsConsistent s)
    (hm : ∀ i c, s.context i = some c → c.point = p → c.state.charged = true → c.lastMeasured.isSome = true) :
    PointsConsistent (s.countSweep p) := by
  unfold State.countSweep
  split
  · exact h
  next i hh =>
    split
    next c k hc hk =>
      obtain ⟨held, hphase⟩ := h.held hh hc
      rw [hk] at hphase
      obtain ⟨hout, harmed, hk1⟩ := phaseAgrees_counting hphase
      rw [hout, harmed] at hphase
      have hpend : c.abortPending = none := by
        by_contra ha
        have := (h.pending_of_some hc (Option.isSome_iff_ne_none.2 ha)).1
        rw [held.place, hout] at this; cases this
      have rested : Rested (s.stopCounting p) p := .stopCounting hout
      have next (hk0 : k ≠ 0) (hst : phaseAgrees c.state false 1 true = true) : PointsConsistent (s.armSettle p k) := by
        obtain rfl : k = 1 := by omega
        exact held.count hout hst hpend
      split
      next hst =>
        split
        · exact held.stopCounting.measureForward rested hpend hst (hm i c hc held.place (by rw [hst]; rfl))
        next hk0 => exact next hk0 (by rw [hst]; rfl)
      next hst =>
        split
        · exact held.stopCounting.measureBackoff rested hpend _
        next hk0 => exact next hk0 (by rw [hst]; rfl)
      next hst =>
        split
        · exact held.stopCounting.requeue rested hpend rfl
        next hk0 => exact next hk0 (by rw [hst]; rfl)
      · exact h
    · exact h

/-- A charged record of the point takes its last measured value from an accepted sweep (R73). -/
theorem Context.measure_isSome {x : Context} {r : List Word16} (hp : (x.measure p r).point = p)
    (hc : (x.measure p r).charge.isSome = true) : (x.measure p r).lastMeasured.isSome = true := by
  unfold Context.measure at hp hc ⊢
  split
  · rfl
  next hnot =>
    rw [if_neg hnot] at hp hc
    simp [hp, hc] at hnot

theorem PointsConsistent.acceptSweep (h : PointsConsistent s) (hr : RecordsWellFormed s) (p : PointIx) (q : Byte) (r : List Word16) :
    PointsConsistent (s.acceptSweep p q r) := by
  have hpoint : Quiet s (s.modPoint p fun x => { x with lastSequence := some q }) :=
    .modPoint ⟨rfl, rfl, rfl, rfl, rfl, rfl⟩ id
  have hmeasure := Quiet.mapContexts (s := s.modPoint p fun x => { x with lastSequence := some q }) (Context.measure_alike p r)
  have hrecords := Edit.keeps_records (.quiet hmeasure) (Edit.keeps_records (.quiet hpoint) hr)
  refine ((h.quiet hpoint).quiet hmeasure).countSweep fun i c hc hp hcharged => ?_
  have hcharge : c.charge.isSome = true := (Context.wellFormed_iff.1 (hrecords i c hc)).1.charge.trans hcharged
  rw [State.mapContexts_context] at hc
  obtain ⟨x, -, rfl⟩ := Option.map_eq_some_iff.1 hc
  exact Context.measure_isSome hp hcharge

/-! ### Outcomes and expiries -/

/-- A point whose setting has just left the table (R144, R146). -/
theorem State.removeEntry_isOutstanding (s : State) (p q : PointIx) (w : List Setting) :
    State.isOutstanding { s.removeEntry p with toSend := w } q = if p = q then false else s.isOutstanding q := by
  simp only [State.isOutstanding, State.removeEntry, Fin.getElem_fin, put_get]
  split <;> rfl

theorem Held.removeEntry (h : Held s p i c) (hphase : phaseAgrees c.state true (s.point p).settle (s.point p).sweepTimer.isSome = true)
    (w : List Setting) : Held { s.removeEntry p with toSend := w } p i c ∧ Rested { s.removeEntry p with toSend := w } p := by
  obtain ⟨hsettle, harmed⟩ := phaseAgrees_outstanding hphase
  refine ⟨h.update ⟨h.record, h.place, fun _ _ => rfl, fun _ _ => rfl, fun q hq => ?_⟩ rfl rfl rfl rfl, ?_, hsettle, harmed⟩
  · rw [State.removeEntry_isOutstanding, if_neg (Ne.symm hq)]
  · rw [State.removeEntry_isOutstanding, if_pos rfl]

/-- The darkening of the holder ends (R87, R88). -/
theorem Held.darkened (h : Held s p i c) (hr : Rested s p) (x : Slot) (al : Alerts) (e : Ending) (b : Bool) :
    PointsConsistent (s.darkened p i c x al e b) := by
  have R : Rewrites s (s.darkened p i c x al e b) p i { c with
      charge := none, lastMeasured := none, reference := none, abortPending := none, ending := some e
      state := .ended, watchTimer := none } :=
    ⟨(darkened_context s p i c e x al b i).trans (if_pos rfl), h.place,
      fun j hj => (darkened_context s p i c e x al b j).trans (if_neg (Ne.symm hj)),
      fun q hq => (darkened_point s p i c e x al b h.place q).trans (if_neg (Ne.symm hq)),
      fun q _ => by rw [darkened_eq]; rfl⟩
  refine h.leave R (.inl rfl) rfl hr (l := (s.point p).load - c.charge.getD 0) ?_ (by rw [darkened_eq]; rfl)
  rw [darkened_point s p i c e x al b h.place, if_pos rfl]
  simp [CtxState.queued]

theorem Held.dark (h : Held s p i c) (hr : Rested s p) (he : c.ending.isSome = true) : PointsConsistent (s.dark p i c) := by
  obtain ⟨e, he⟩ := Option.isSome_iff_exists.1 he
  rw [dark_eq he]
  exact (h.darkened hr _ _ _ _).attempt p

theorem Held.darkUnconfirmed (h : Held s p i c) (hr : Rested s p) (he : c.ending.isSome = true) :
    PointsConsistent (s.darkUnconfirmed p i c) := by
  obtain ⟨e, he⟩ := Option.isSome_iff_exists.1 he
  rw [darkUnconfirmed_eq he]
  exact (h.darkened hr _ _ _ _).attempt p

theorem Held.rampOutcome (h : Held s p i c) (hr : Rested s p) (hpend : c.abortPending = none) (x : RampSub) (n : Nat)
    (o : SettingOutcome) : PointsConsistent (s.rampOutcome p i c x n o) := by
  cases o with
  | ok =>
    refine (h.setContext (d := { c with state := .ramping (if x = .backoff then .backoff else .settling) n }) h.place).count
      hr.outstanding ?_ hpend
    dsimp only
    split <;> rfl
  | reject => exact h.rampFault _
  | timeout => exact h.rampFault _

theorem Held.gradualOutcome (h : Held s p i c) (hr : Rested s p) (hpend : c.abortPending = none) (he : c.ending.isSome = true)
    (o : SettingOutcome) : PointsConsistent (s.gradualOutcome p i c o) := by
  have hhard : PointsConsistent (s.hardTurn p i) := by
    rw [State.hardTurn_eq _ h.record]; exact h.turnBegun hr.settle hr.armed hpend .hard
  cases o with
  | ok =>
    unfold State.gradualOutcome
    dsimp only
    split
    · exact h.dark hr he
    · exact (h.setContext (d := { c with state := .retiring .gradual .settling }) h.place).count hr.outstanding rfl hpend
  | reject => exact hhard
  | timeout => exact hhard

/-- The service request's BLOCK has its outcome (R92). -/
theorem PointsConsistent.serviceOutcome (h : PointsConsistent s) (hh : (s.point p).holder = none) (w : List Setting)
    (o : SettingOutcome) : PointsConsistent ({ s.removeEntry p with toSend := w }.serviceOutcome p o) := by
  have hdone : PointsConsistent ({ s.removeEntry p with toSend := w }.modPoint p fun q =>
      { q with service := .none, lastService := some o }) := by
    refine h.holderless hh (x := .none) (o := some o) rfl (fun q hq => ?_) ?_ (fun q hq => ?_) ?_
    · exact (State.modPoint_point _ _ _ _).trans (if_neg (Ne.symm hq))
    · exact State.modPoint_point_self _ _ _
    · exact (s.removeEntry_isOutstanding p q w).trans (if_neg (Ne.symm hq))
    · exact (s.removeEntry_isOutstanding p p w).trans (if_pos rfl)
  have hraised (u : State) (hu : PointsConsistent u) : PointsConsistent (u.raiseActuator.grant p) :=
    (hu.congr rfl rfl rfl : PointsConsistent u.raiseActuator).grant p
  cases o with
  | ok => exact hdone.grant p
  | reject => exact hraised _ hdone
  | timeout => exact hraised _ hdone

/-- An ACTIVE service request has the point without a holder (R92). -/
theorem PointsConsistent.no_holder_of_active (h : PointsConsistent s) (hs : (s.point p).service.isActive = true) :
    (s.point p).holder = none := by
  by_contra hh
  obtain ⟨i, hi⟩ := Option.ne_none_iff_exists'.1 hh
  obtain ⟨st, hseat⟩ := ((h.agrees p).holder i).1 hi
  have hinactive := ((h.agrees p).turn i st hseat).1
  rw [hs] at hinactive; cases hinactive

/-- An outstanding setting that is no service request's is a holder's (R141). -/
theorem PointsConsistent.holder_of_outstanding (h : PointsConsistent s) (hout : s.isOutstanding p = true)
    (hs : (s.point p).service.isActive = false) : ∃ i c, (s.point p).holder = some i ∧ s.context i = some c := by
  cases hh : (s.point p).holder with
  | none =>
    have hactive := ((h.agrees p).idle hh).1
    rw [hout, hs] at hactive; cases hactive
  | some i =>
    obtain ⟨st, hseat⟩ := ((h.agrees p).holder i).1 hh
    obtain ⟨c, hc, -, -⟩ := State.seat_eq_some.1 hseat
    exact ⟨i, c, rfl, hc⟩

/-- An abort is pending at no context that retires (R75). -/
theorem PointsConsistent.pending_of_retiring (h : PointsConsistent s) (hc : s.context i = some c) {m : Mode} {x : RetireSub}
    (hst : c.state = .retiring m x) : c.abortPending = none := by
  by_contra ha
  have hbackoffs := (h.pending_of_some hc (Option.isSome_iff_ne_none.2 ha)).2
  rw [hst] at hbackoffs; cases hbackoffs

/-- A holder ramps or retires (R24, R59). -/
theorem CtxState.ramping_or_retiring {st : CtxState} (h : st.holding = true) :
    (∃ x n, st = .ramping x n) ∨ ∃ m x, st = .retiring m x := by
  unfold CtxState.holding at h
  split at h
  · exact .inl ⟨_, _, rfl⟩
  · exact .inr ⟨_, _, rfl⟩
  · cases h

/-- The outcome of the holder's setting is delivered (R64, R69, R75, R82, R86). -/
theorem Held.deliver (h : Held s p i c) (hr : Rested s p) (hhold : c.state.holding = true)
    (hending : c.ending.isSome = c.state.ending) (hpend : ∀ m x, c.state = .retiring m x → c.abortPending = none)
    (o : SettingOutcome) : PointsConsistent (s.deliver p o) := by
  have hinactive := h.inactive
  unfold State.deliver
  split
  next r hs => rw [hs] at hinactive; cases hinactive
  rw [h.holder]
  dsimp only
  rw [h.record]
  dsimp only
  rcases CtxState.ramping_or_retiring hhold with ⟨x, n, hst⟩ | ⟨m, x, hst⟩
  · rw [hst]
    dsimp only
    split
    · cases o <;> exact h.retireHolder _ _
    next hnone => exact h.rampOutcome hr hnone x n o
  · rw [hst] at hending ⊢
    cases m with
    | gradual => exact h.gradualOutcome hr (hpend _ _ hst) hending o
    | hard =>
      cases o with
      | ok => exact h.dark hr hending
      | reject => exact h.darkUnconfirmed hr hending
      | timeout => exact h.darkUnconfirmed hr hending

theorem PointsConsistent.deliver (h : PointsConsistent s) (hr : RecordsWellFormed s) (hout : s.isOutstanding p = true)
    (w : List Setting) (o : SettingOutcome) : PointsConsistent ({ s.removeEntry p with toSend := w }.deliver p o) := by
  cases hs : (s.point p).service.isActive with
  | true =>
    have hdone := h.serviceOutcome (h.no_holder_of_active hs) w o
    have hpoint : State.point { s.removeEntry p with toSend := w } p = s.point p := rfl
    unfold State.deliver
    rw [hpoint]
    split
    · exact hdone
    next hno =>
      cases hx : (s.point p).service with
      | active r => exact absurd hx (hno r)
      | pending r => rw [hx] at hs; cases hs
      | none => rw [hx] at hs; cases hs
  | false =>
    obtain ⟨i, c, hh, hc⟩ := h.holder_of_outstanding hout hs
    obtain ⟨held, hphase⟩ := h.held hh hc
    rw [hout] at hphase
    obtain ⟨held', rested⟩ := held.removeEntry hphase w
    exact held'.deliver rested (holding_of_phaseAgrees hphase) (Context.wellFormed_iff.1 (hr i c hc)).1.ending
      (fun _ _ hst => h.pending_of_retiring hc hst) o

theorem PointsConsistent.sweepExpiry (h : PointsConsistent s) (p : PointIx) : PointsConsistent (s.sweepExpiry p) := by
  unfold State.sweepExpiry
  split
  next i _ hh =>
    split
    · exact h
    next c hc =>
      obtain ⟨held, -⟩ := h.held hh hc
      split
      · exact held.rampFault _
      next hst =>
        have hstop := held.stopCounting
        rw [State.hardTurn_eq _ hstop.record]
        exact hstop.turnBegun (by simp [State.stopCounting]) (by simp [State.stopCounting])
          (h.pending_of_retiring hc hst) .hard
      · exact h
  · exact h

/-! ### Every step -/

theorem PointsConsistent.create (h : PointsConsistent s) (ht : TableConsistent s) (hi : s.chooseRecord = some i) {st : CtxState}
    (hc : c.Newborn st) : PointsConsistent (s.create i c st) := by
  refine h.unlisted (i := i) (fun j hj => ?_) (fun e he => ?_) (fun e he => ?_) rfl rfl
  · rw [State.create_context, if_neg hj]
  · have hdead := chosen_not_live ht hi e he
    simp only [Context.live, bne_eq_false_iff_eq] at hdead
    rw [hdead]; rfl
  · rw [State.create_context, if_pos rfl] at he
    cases he
    refine ⟨?_, hc.abortPending⟩
    have hfirst := hc.first
    revert hfirst
    cases st <;> simp [CtxState.isFirst, CtxState.place]

/-- A state change between two states in which the context is listed nowhere. -/
theorem PointsConsistent.enter (h : PointsConsistent s) (hc : s.context i = some c) (hst : c.state.place = none)
    (hhold : c.state.holding = false) {st : CtxState} (hnew : st.place = none) : PointsConsistent (s.enter i c st) := by
  have hpend := h.abortPending_eq_none hc hhold
  refine h.unlisted (i := i) (fun j hj => ?_) (fun e he => ?_) (fun e he => ?_) rfl rfl
  · rw [State.enter_context, if_neg hj]
  · cases hc.symm.trans he; exact hst
  · rw [State.enter_context, if_pos rfl] at he
    cases he; exact ⟨hnew, hpend⟩

theorem PointsConsistent.release (h : PointsConsistent s) (hc : s.context i = some c) (hst : c.state = .ended) :
    PointsConsistent ((s.forget i).setContext i none) := by
  refine h.unlisted (i := i) (fun j hj => ?_) (fun e he => ?_) (fun e he => ?_) rfl rfl
  · rw [State.setContext_context, if_neg hj]; rfl
  · cases hc.symm.trans he; rw [hst]; rfl
  · rw [State.setContext_context_self] at he; cases he

/-- The table, the records and the points agree with one another. -/
structure Consistent (s : State) : Prop where
  table : TableConsistent s
  records : RecordsWellFormed s
  points : PointsConsistent s

theorem consistent_kept : Kept Consistent := by
  have T := Kept.of_edits Edit.keeps_table AfterReset.tableConsistent
  have R := Kept.of_edits Edit.keeps_records AfterReset.recordsWellFormed
  exact {
    quiet := fun h hq => ⟨T.quiet h.table hq, R.quiet h.records hq, h.points.quiet hq⟩
    reset := fun h => ⟨h.tableConsistent, h.recordsWellFormed, h.pointsConsistent⟩
    create := fun h hi hid hc => ⟨T.create h.table hi hid hc, R.create h.records hi hid hc, h.points.create h.table hi hc⟩
    release := fun h hc hst => ⟨T.release h.table hc hst, R.release h.records hc hst, h.points.release hc hst⟩
    grant := fun p h => ⟨T.grant p h.table, R.grant p h.records, h.points.grant p⟩
    attempt := fun p h => ⟨T.attempt p h.table, R.attempt p h.records, h.points.attempt p⟩
    reserve := fun h hc hst => ⟨T.reserve h.table hc hst, R.reserve h.records hc hst,
      h.points.enter hc (by rw [hst]; rfl) (by rw [hst]; rfl) rfl⟩
    joinLine := fun h hc hst => ⟨T.joinLine h.table hc hst, R.joinLine h.records hc hst, h.points.joinLine hc hst⟩
    serve := fun h hc hst => ⟨T.serve h.table hc hst, R.serve h.records hc hst,
      h.points.enter hc (by rw [hst]; rfl) (by rw [hst]; rfl) rfl⟩
    retireAtTail := fun e m h hc hst => ⟨T.retireAtTail e m h.table hc hst, R.retireAtTail e m h.records hc hst,
      h.points.retireAtTail hc (.inr hst) e m⟩
    endNeverLit := fun e h hc hst => ⟨T.endNeverLit e h.table hc hst, R.endNeverLit e h.records hc hst,
      h.points.endNeverLit hc (by rw [hst]; rfl) e⟩
    abortEffect := fun e h hc hl => ⟨T.abortEffect e h.table hc hl, R.abortEffect e h.records hc hl, h.points.abortEffect hc e⟩
    acceptSweep := fun p q r h => ⟨T.acceptSweep p q r h.table, R.acceptSweep p q r h.records, h.points.acceptSweep h.records p q r⟩
    deliver := fun w o h hout => ⟨T.deliver w o h.table hout, R.deliver w o h.records hout, h.points.deliver h.records hout w o⟩
    sweepExpiry := fun p h => ⟨T.sweepExpiry p h.table, R.sweepExpiry p h.records, h.points.sweepExpiry p⟩ }

end Sys2Proof.Machine

open Sys2Proof Sys2Proof.Machine

/-- Settles O58: each operation moves one record between the lists, the lock and nowhere, and its turn with it. -/
theorem stepKeepsPointsConsistent : Obligations.StepKeepsPointsConsistent :=
  fun _ _ ht hr hp hstep => (consistent_kept.step ⟨ht, hr, hp⟩ hstep).points
end

section
/-! ## The passing of a millisecond (R34) -/

namespace Sys2Proof.Machine

section
variable (s : State)

theorem State.later_context (i : CtxIx) : s.later.context i = (s.context i).map Context.countDown := by
  simp [State.later, State.context]

theorem State.later_point (p : PointIx) : s.later.point p = (s.point p).countDown := by simp [State.later, State.point]

theorem State.later_outstanding (p : PointIx) : s.later.outstanding[p] = s.outstanding[p].map Outstanding.countDown := by
  simp [State.later]

/-- The expiries that are due, by the timers that stand at 0. -/
theorem State.mem_expiries {x : Instr} : x ∈ s.expiries ↔
    (∃ i, x = .watchTimerExpiry i ∧ ∃ c ∈ s.context i, c.watchTimer = some 0) ∨
    (∃ p, x = .sweepTimerExpiry p ∧ (s.point p).sweepTimer = some 0) ∨
    (∃ p : PointIx, x = .actuatorTimerExpiry p ∧ ∃ e ∈ s.outstanding[p], e.timer = 0) := by
  simp only [State.expiries, List.mem_append, List.mem_map, List.mem_filter, List.mem_finRange, true_and, expired, beq_iff_eq,
    Option.any_eq_true, or_assoc]
  refine or_congr ?_ (or_congr ?_ ?_) <;>
    exact exists_congr fun _ => ⟨fun ⟨h, e⟩ => ⟨e.symm, h⟩, fun ⟨e, h⟩ => ⟨h, e.symm⟩⟩

/-- No timer is due twice. -/
theorem State.expiries_nodup : s.expiries.Nodup := by
  have hmap {n : Nat} (f : Fin n → Instr) (hf : Function.Injective f) (b : Fin n → Bool) :
      (((List.finRange n).filter b).map f).Nodup := ((List.nodup_finRange n).filter b).map hf
  have hwatch := hmap Instr.watchTimerExpiry fun _ _ h => by cases h; rfl
  have hsweep := hmap Instr.sweepTimerExpiry fun _ _ h => by cases h; rfl
  have hactuator := hmap Instr.actuatorTimerExpiry fun _ _ h => by cases h; rfl
  refine List.nodup_append'.2 ⟨List.nodup_append'.2 ⟨hwatch _, hsweep _, ?_⟩, hactuator _, ?_⟩
  · intro x hx hy
    obtain ⟨i, -, rfl⟩ := List.mem_map.1 hx
    obtain ⟨p, -, hp⟩ := List.mem_map.1 hy
    cases hp
  · intro x hx hy
    obtain ⟨p, -, rfl⟩ := List.mem_map.1 hy
    rcases List.mem_append.1 hx with hx | hx <;> obtain ⟨q, -, hq⟩ := List.mem_map.1 hx <;> cases hq

end

/-- A timer is at 0 a millisecond later when it had one left or none (R34). -/
theorem countDown_eq_zero {o : Option Nat} : countDown o = some 0 ↔ o = some 0 ∨ o = some 1 := by
  cases o with
  | none => simp [countDown]
  | some n => simp only [countDown, Option.map_some, Option.some.injEq]; omega

end Sys2Proof.Machine

open Sys2Proof Sys2Proof.Machine

/-- Settles O2: what is due a millisecond later is what has at most one left. -/
theorem idleStepPassesAMillisecond : Obligations.IdleStepPassesAMillisecond := by
  intro s hs
  have hpending : (tick s).pending = s.later.expiries := by rw [tick, hs]; rfl
  refine ⟨tick s, by rw [step, hs], ?_, s.later_context, s.later_point, s.later_outstanding, ?_, fun x => ?_⟩
  · cases s; cases hs; rfl
  · rw [hpending]; exact s.later.expiries_nodup
  · rw [hpending, State.mem_expiries]
    refine or_congr (exists_congr fun i => and_congr_right fun _ => ?_)
      (or_congr (exists_congr fun p => and_congr_right fun _ => ?_) (exists_congr fun p => and_congr_right fun _ => ?_))
    · rw [State.later_context]
      cases s.context i with
      | none => simp
      | some c => simpa [Context.countDown] using countDown_eq_zero
    · rw [State.later_point]; exact countDown_eq_zero
    · rw [State.later_outstanding]
      cases s.outstanding[p] with
      | none => simp
      | some e => simp [Outstanding.countDown]; omega
end

section
/-! ## The ends of a context, an accepted PROBE and an admission attempt (R56, R89, R103, R104, R106) -/

namespace Sys2Proof.Machine

/-! ### A context that never lit ends (R89) -/

section
variable (s : State) (i : CtxIx) (c : Context) (e : Ending)

theorem endedNeverLit_context (j : CtxIx) : (s.endedNeverLit i c e).context j = if i = j then some { c with
    charge := none, lastMeasured := none, reference := none, abortPending := none, ending := some e
    state := .ended, watchTimer := none } else s.context j := by
  refine (State.endRecord_context _ i j c e).trans ?_
  simp [State.context]

theorem endedNeverLit_point (p : PointIx) : (s.endedNeverLit i c e).point p = if c.point = p then { s.point c.point with
    line := (s.point c.point).line.erase i, queue := (s.point c.point).queue.erase i
    load := (s.point c.point).load - c.charge.getD 0 } else s.point p := by
  have hpoint : (s.endedNeverLit i c e).point p =
      ((s.modPoint c.point fun q => { q with line := q.line.erase i, queue := q.queue.erase i }).discharge c).point p := by
    simp [State.endedNeverLit, State.point]
  rw [hpoint, State.discharge_eq_modPoint, State.modPoint_modPoint, State.modPoint_point]

theorem endedNeverLit_slotAt (m : MapIx) {k : Nat} (hk : k < 384) : (s.endedNeverLit i c e).slotAt m k =
    if m ∈ c.sides.mapsUsed ∧ c.run.covers k = true then .free else s.slotAt m k := by
  refine (State.writeRun_slotAt _ c.sides.mapsUsed c.run .free m hk).trans ?_
  simp [State.slotAt]

theorem endedNeverLit_changed (x : Station) (j : CtxIx) : ((s.endedNeverLit i c e).changed[x])[j] =
    if j = i ∧ (x = 0 ∨ x = c.owner) then true else (s.changed[x])[j] := by
  refine (State.enter_changed_eq _ i j _ .ended x).trans ?_
  simp

theorem endedNeverLit_endedList : (s.endedNeverLit i c e).endedList = s.endedList ++ [i] := by
  simp [State.endedNeverLit]

/-- The end of a context changes records, points, maps, the ended list and the changed sets alone. -/
theorem endedNeverLit_rest : { s.endedNeverLit i c e with
    contexts := s.contexts, endedList := s.endedList, points := s.points, maps := s.maps, changed := s.changed } = s := by
  rw [State.endedNeverLit, State.discharge_eq, State.writeRun_eq]; rfl

/-- A context that no list of its point holds and that is uncharged leaves the points as they are. -/
theorem endedNeverLit_points (hc : c.charge = none) (hl : i ∉ (s.point c.point).line) (hq : i ∉ (s.point c.point).queue) :
    (s.endedNeverLit i c e).points = s.points := by
  refine Vector.ext fun k hk => ?_
  have hpoint := endedNeverLit_point s i c e ⟨k, hk⟩
  rw [List.erase_of_not_mem hl, List.erase_of_not_mem hq, hc] at hpoint
  refine hpoint.trans ?_
  split
  next h => exact congrArg s.point h
  · rfl

end

/-! ### What an abort does, by the state (R75, R76, R79, R89, R90) -/

section
variable {s : State} {i : CtxIx} {c : Context} {e : Ending}

theorem abortEffect_neverLit (h : c.state = .probing ∨ c.state = .reserved ∨ c.state = .waitBudget) :
    s.abortEffect i c e = s.endNeverLit i c e := by
  unfold State.abortEffect
  rcases h with h | h | h <;> rw [h]

theorem abortEffect_dark {n : Nat} (h : c.state = .ramping .queued n) (ha : c.attenuation = .block) :
    s.abortEffect i c e = s.endNeverLit i c e := by
  unfold State.abortEffect; rw [h]; simp only [ha]

theorem abortEffect_queued {n : Nat} (h : c.state = .ramping .queued n) (ha : c.attenuation ≠ .block) :
    s.abortEffect i c e = s.enter i { c with ending := some e } (.retiring .gradual .queued) := by
  unfold State.abortEffect
  rw [h]
  cases hatten : c.attenuation with
  | block => exact absurd hatten ha
  | tenths n => rfl

theorem abortEffect_holder {x : RampSub} {n : Nat} (h : c.state = .ramping x n) (hx : x ≠ .queued) : s.abortEffect i c e =
    if s.isOutstanding c.point then s.setContext i (some { c with abortPending := some e })
    else s.holderRetired c.point i c e .gradual := by
  unfold State.abortEffect
  rw [← State.retireHolder_eq, h]
  cases x with
  | queued => exact absurd rfl hx
  | actuating | settling | backoff => rfl

theorem abortEffect_settled (h : c.state = .passed ∨ c.state = .inService) : s.abortEffect i c e =
    ((s.enter i { c with ending := some e } (.retiring .gradual .queued)).modPoint c.point fun q =>
      { q with queue := q.queue ++ [i] }).grant c.point := by
  unfold State.abortEffect
  rcases h with h | h <;> rw [h] <;> rfl

/-- An ABORT is passed on to the other neighbour, where the two lie on different links (R109). -/
theorem otherNeighbour_eq {x : Sides} {d : Degree} {other : Option Degree}
    (h : x.upstream = some d ∧ other = (if x.downstream = some d then none else x.downstream) ∨
      x.downstream = some d ∧ other = (if x.upstream = some d then none else x.upstream)) : x.otherNeighbour d = other := by
  unfold Sides.otherNeighbour
  rcases h with ⟨hu, rfl⟩ | ⟨hd, rfl⟩
  · rw [hu]; simp [eq_comm]
  · rw [hd]
    split
    · rfl
    · rfl

end

/-! ### Admission (R56) -/

/-- From `s` to `u` the members `admitted` have left the head of the line of `p` for its step queue, and `waiting` are left (R56). -/
structure Admits (s u : State) (p : PointIx) (admitted waiting : List CtxIx) : Prop where
  line : (s.point p).line = admitted ++ waiting
  point : u.point p = { s.point p with line := waiting, queue := (s.point p).queue ++ admitted, load := (u.point p).load }
  points : ∀ q, q ≠ p → u.point q = s.point q
  changed : ∀ (x : Station) (j : CtxIx), (u.changed[x])[j] =
    if j ∈ admitted ∧ (x = 0 ∨ (s.context j).any (fun c => x == c.owner) = true) then true else (s.changed[x])[j]
  rest : { u with contexts := s.contexts, points := s.points, changed := s.changed } = s
  record : ∀ i ∈ admitted, ∀ c, s.context i = some c → u.context i = some { c with
    state := .ramping .queued 0, watchTimer := none, step := c.baseStep, charge := some (chargeOf c.target c.window) }
  others : ∀ i, i ∉ admitted → u.context i = s.context i
  load : (u.point p).load = (s.point p).load + (admitted.map fun i =>
    ((s.context i).map fun c => chargeOf c.target c.window).getD 0).sum
  within : admitted ≠ [] → (u.point p).load ≤ forward (s.point p).limit
  stops : ∀ i c, waiting.head? = some i → s.context i = some c →
    forward (s.point p).limit < (u.point p).load + chargeOf c.target c.window

namespace Admits

variable {s u : State} {p : PointIx} {i : CtxIx} {c : Context} {rest admitted waiting : List CtxIx}

/-- Nothing is admitted where the head of the line does not fit. -/
theorem none (hstop : ∀ i c, (s.point p).line.head? = some i → s.context i = some c →
    fits (s.point p) (chargeOf c.target c.window) = false) :
    Admits s s p [] (s.point p).line where
  line := rfl
  point := by rw [List.append_nil]
  points _ _ := rfl
  changed x j := by simp
  rest := rfl
  record i hi := by cases hi
  others _ _ := rfl
  load := by simp
  within h := absurd rfl h
  stops i c hi hc := by simpa [fits] using hstop i c hi hc

/-- One admission, and the ones behind it. -/
theorem cons (hline : (s.point p).line = i :: rest) (hnodup : (i :: rest).Nodup) (hc : s.context i = some c)
    (hfits : fits (s.point p) (chargeOf c.target c.window) = true) (h : Admits (s.admitOne p i rest c) u p admitted waiting) :
    Admits s u p (i :: admitted) waiting := by
  have hpoint := s.admitOne_point p p i rest c
  rw [if_pos rfl] at hpoint
  have hrest : rest = admitted ++ waiting := by rw [← h.line, hpoint]
  have hi : i ∉ admitted := fun hm => (List.nodup_cons.1 hnodup).1 (hrest ▸ List.mem_append_left _ hm)
  have hself := s.admitOne_context p i i rest c
  rw [if_pos rfl] at hself
  have hother {j : CtxIx} (hj : j ≠ i) : (s.admitOne p i rest c).context j = s.context j :=
    (s.admitOne_context p i j rest c).trans (if_neg (Ne.symm hj))
  have hload : (u.point p).load = (s.point p).load + chargeOf c.target c.window + (admitted.map fun i =>
      ((s.context i).map fun c => chargeOf c.target c.window).getD 0).sum := by
    rw [h.load, hpoint]
    refine congrArg (_ + ·) (congrArg List.sum (List.map_congr_left fun j hj => ?_))
    rw [hother fun e => hi (e ▸ hj)]
  have hchanged (x : Station) (j : CtxIx) : ((s.admitOne p i rest c).changed[x])[j] =
      if j = i ∧ (x = 0 ∨ x = c.owner) then true else (s.changed[x])[j] := State.enter_changed_eq _ i j _ _ x
  refine ⟨?_, ?_, fun q hq => ?_, fun x j => ?_, ?_, fun j hj y hy => ?_, fun j hj => ?_, ?_, fun _ => ?_, fun j y hj hy => ?_⟩
  · rw [hline, hrest]; rfl
  · rw [h.point, hpoint, List.append_assoc]; rfl
  · rw [h.points q hq, s.admitOne_point, if_neg (Ne.symm hq)]
  · rw [h.changed, hchanged]
    by_cases hj : j = i
    · subst hj; simp only [hi, hc, false_and, if_false, true_and, List.mem_cons_self, Option.any_some, beq_iff_eq]
    · simp only [hother hj, hj, List.mem_cons, false_or, false_and, if_false]
  · exact (congrArg (fun v : State => { v with contexts := s.contexts, points := s.points, changed := s.changed }) h.rest).trans
      (s.admitOne_rest p i rest c)
  · rcases List.mem_cons.1 hj with rfl | hj
    · cases hc.symm.trans hy
      rw [h.others j hi, hself]
    · exact h.record j hj y ((hother fun e => hi (e ▸ hj)).trans hy)
  · rw [List.mem_cons, not_or] at hj
    rw [h.others j hj.2, hother hj.1]
  · rw [hload, List.map_cons, List.sum_cons, hc, Option.map_some, Option.getD_some, Nat.add_assoc]
  · by_cases hnil : admitted = []
    · rw [hload, hnil]
      simpa [fits] using hfits
    · have hwithin := h.within hnil
      rw [hpoint] at hwithin; exact hwithin
  · have hm : j ∈ rest := hrest ▸ List.mem_append_right _ (List.mem_of_mem_head? hj)
    have hji : j ≠ i := fun e => (List.nodup_cons.1 hnodup).1 (e ▸ hm)
    have hstops := h.stops j y hj ((hother hji).trans hy)
    rw [hpoint] at hstops; exact hstops

end Admits

/-- The admissions of a line whose members all wait for budget (R55, R56). -/
theorem admitLoop_admits {p : PointIx} (l : List CtxIx) (s : State) (hl : (s.point p).line = l) (hnodup : l.Nodup)
    (hwait : ∀ i ∈ l, ∃ c, s.context i = some c ∧ c.state = .waitBudget) :
    ∃ admitted waiting, Admits s (State.admitLoop p l s) p admitted waiting := by
  induction l generalizing s with
  | nil => exact ⟨[], _, .none fun i c hi => by rw [hl] at hi; cases hi⟩
  | cons i rest ih =>
    obtain ⟨c, hc, hst⟩ := hwait i List.mem_cons_self
    by_cases hfits : fits (s.point p) (chargeOf c.target c.window) = true
    · have hwait' : ∀ j ∈ rest, ∃ x, (s.admitOne p i rest c).context j = some x ∧ x.state = .waitBudget := fun j hj => by
        obtain ⟨x, hx, hxs⟩ := hwait j (List.mem_cons_of_mem _ hj)
        refine ⟨x, ?_, hxs⟩
        rw [State.admitOne_context, if_neg fun e : i = j => (List.nodup_cons.1 hnodup).1 (e ▸ hj)]
        exact hx
      obtain ⟨admitted, waiting, h⟩ := ih (s.admitOne p i rest c) (by rw [State.admitOne_point, if_pos rfl])
        (List.nodup_cons.1 hnodup).2 hwait'
      refine ⟨i :: admitted, waiting, ?_⟩
      rw [State.admitLoop, hc]
      simp only [hst, hfits, and_self, if_true]
      exact .cons hl hnodup hc hfits h
    · refine ⟨[], (s.point p).line, ?_⟩
      rw [State.admitLoop, hc]
      dsimp only
      rw [if_neg fun h => hfits h.2]
      refine .none fun j x hj hx => ?_
      rw [hl] at hj
      cases hj
      cases hc.symm.trans hx
      exact Bool.eq_false_iff.2 hfits

/-! ### An accepted PROBE (R103, R104) -/

section
variable {s : State} {d : Degree} {id : Word32} {q : Probe} {i : CtxIx}

/-- A PROBE at the end of its route, at the drop port that its route names. -/
theorem takeProbe_drop {drop : Fin 16} (ho : s.nodeOpen = true) (h : NoneLive s id) (hi : Chooses s i)
    (hk : q.hop + 1 = q.length) (hdrop : q.entry.toNat = drop.val) : s.takeProbe d id q = s.probeTail d drop id q i := by
  have hport : portArg q.entry = some drop := by
    rw [portArg, dif_pos (by omega)]; exact congrArg some (Fin.ext hdrop)
  unfold State.takeProbe
  dsimp only
  rw [ho, State.findLive_eq_none_iff.2 h, State.chooseRecord_eq_some hi]
  simp only [Bool.not_true, Bool.false_eq_true, if_false, Option.isSome_none, hk, lt_irrefl, hport]

theorem probeTransit_free {e : Degree} (h : FreeOn s [ingressMap d, egressMap e] q.run) : s.probeTransit d e id q i =
    ((s.writeRun [ingressMap d, egressMap e] q.run (.held i)).create i
      (probeContext s q id (degreeStation e) (.transit d e) .probing) .probing).offer e id (q.body (q.hop + 1)) := by
  unfold State.probeTransit; rw [State.conflict_of_freeOn h]

theorem probeTail_free {drop : Fin 16} (h : FreeOn s [ingressMap d] q.run) : s.probeTail d drop id q i =
    ((s.writeRun [ingressMap d] q.run (.held i)).create i
      (probeContext s q id (degreeStation d) (.tail d drop) .reserved) .reserved).offer d id (.clear (q.length - 1)) := by
  unfold State.probeTail; rw [State.conflict_of_freeOn h]

end
end Sys2Proof.Machine

open Sys2Proof Sys2Proof.Machine

/-- Settles O34: past the choice of a record and the free run, the creation and the answer are the definition's. -/
theorem acceptedProbeCreatesAContext : Obligations.AcceptedProbeCreatesAContext := by
  refine ⟨fun _ _ => rfl, fun s d n id k f w window step len route i hheads ho hnone hi => ?_⟩
  let q : Probe := ⟨k, ⟨f, w⟩, window, step, len, route⟩
  have hexec : exec (.probe d) s = .next ((s.removeHead d).takeProbe d id q) :=
    congrArg Host.Outcome.next (State.takeFrame_of_heads hheads rfl)
  refine ⟨fun e hk he hne hup hfree => ?_, fun drop hk hdrop hfree => ?_⟩
  · have honward := takeProbe_onward (s := s.removeHead d) (d := d) (q := q) (i := i) ho hnone hi hk he
    rw [State.removeHead_link_state, if_neg (by simp [hne, hup]), probeTransit_free (s := s.removeHead d) (q := q) hfree] at honward
    exact hexec.trans (congrArg Host.Outcome.next honward)
  · have hlast := takeProbe_drop (s := s.removeHead d) (d := d) (q := q) (i := i) ho hnone hi hk hdrop
    rw [probeTail_free (s := s.removeHead d) (q := q) hfree] at hlast
    exact hexec.trans (congrArg Host.Outcome.next hlast)

/-- Settles O37: the context ends without an admission attempt, since no list holds it and it is uncharged. -/
theorem refuseEndsAProbingContext : Obligations.RefuseEndsAProbingContext := by
  intro s d n id cause node hop slot i c hheads hlive hst hdown hcharge hline hqueue
  obtain rfl := hlive.carries
  let e : Ending := ⟨.refused, cause, node, some hop, slot, none⟩
  have hend : (s.removeHead d).endNeverLit i c e = (s.removeHead d).endedNeverLit i c e := by
    rw [State.endNeverLit_eq, if_neg (by rw [not_or, not_not]; exact ⟨hline, hcharge⟩)]
  have hexec : exec (.refuse d) s = .next (((s.removeHead d).endedNeverLit i c e).offerTo c.sides.upstream c.lightpathId
      (.refuse cause node hop slot)) := by
    rw [← hend]
    exact congrArg Host.Outcome.next ((State.takeFrame_of_heads hheads rfl).trans (State.forContext_of_live
      (frame := ⟨n, c.lightpathId, .refuse cause node hop slot⟩) (State.removeHead_theLive hlive d) (by simp [hdown, hst])))
  have hrest := endedNeverLit_rest (s.removeHead d) i c e
  have hpoints := endedNeverLit_points (s.removeHead d) i c e hcharge hline hqueue
  refine ⟨_, hexec, ?_, fun j hj => ?_, ?_, fun m q hq => ?_, fun x j => ?_, ?_, ?_⟩
  · simp only [State.context, State.offerTo_contexts]
    exact (endedNeverLit_context _ _ _ _ _).trans (if_pos rfl)
  · simp only [State.context, State.offerTo_contexts]
    exact (endedNeverLit_context _ _ _ _ _).trans (if_neg (Ne.symm hj))
  · rw [State.offerTo_endedList]; exact endedNeverLit_endedList _ _ _ _
  · simp only [State.slotAt, State.offerTo_maps]
    exact endedNeverLit_slotAt (s.removeHead d) i c e m hq
  · simp only [State.offerTo_changed]
    exact endedNeverLit_changed _ _ _ _ _ _
  · have hlinks : ((s.removeHead d).endedNeverLit i c e).links = (s.removeHead d).links := (congrArg State.links hrest :)
    have hnode : ((s.removeHead d).endedNeverLit i c e).nodeId = (s.removeHead d).nodeId := (congrArg State.nodeId hrest :)
    exact State.offerTo_links hlinks hnode _ _ _
  · have h : { (s.removeHead d).endedNeverLit i c e with
        contexts := s.contexts, endedList := s.endedList, maps := s.maps, changed := s.changed, links := s.links
        points := ((s.removeHead d).endedNeverLit i c e).points } = s := by
      rw [hpoints]
      exact congrArg (fun v : State => { v with links := s.links }) hrest
    rw [State.offerTo_eq]
    exact h

/-- Settles O39: an end of a context by its parts, and the branch of the abort's effect for each state. -/
theorem abortActsByTheState : Obligations.AbortActsByTheState := by
  refine ⟨fun s i c e => ⟨s.endedNeverLit i c e, s.endNeverLit_eq i c e, ?_, fun j hj => ?_, endedNeverLit_endedList s i c e, ?_,
    fun p hp => ?_, fun m q hq => endedNeverLit_slotAt s i c e m hq, endedNeverLit_changed s i c e, endedNeverLit_rest s i c e⟩, ?_⟩
  · exact (endedNeverLit_context s i c e i).trans (if_pos rfl)
  · exact (endedNeverLit_context s i c e j).trans (if_neg (Ne.symm hj))
  · exact (endedNeverLit_point s i c e _).trans (if_pos rfl)
  · exact (endedNeverLit_point s i c e p).trans (if_neg (Ne.symm hp))
  intro s d n id origin node i c other u e hheads hlive hneighbours hu he
  obtain rfl := hlive.carries
  have hrow : (c.sides.upstream == some d || c.sides.downstream == some d) = true := by
    rcases hneighbours with ⟨h, -⟩ | ⟨h, -⟩ <;> simp [h]
  have hexec : exec (.abort d) s = .next ((s.removeHead d).takeAbort d i c origin node) :=
    congrArg Host.Outcome.next ((State.takeFrame_of_heads hheads rfl).trans (State.forContext_of_live
      (frame := ⟨n, c.lightpathId, .abort origin node⟩) (State.removeHead_theLive hlive d) hrow))
  have idle (h : c.abortIdle = true) : exec (.abort d) s = .next (s.removeHead d) := by
    rw [hexec, State.takeAbort, if_pos h]
  have acts (h : c.abortIdle = false) : exec (.abort d) s = .next (u.abortEffect i c e) := by
    rw [hexec, State.takeAbort, h, otherNeighbour_eq hneighbours, hu, he]; rfl
  have hout : u.isOutstanding c.point = s.outstanding[c.point].isSome := by
    rw [State.isOutstanding, hu]; simp
  have hnotIdle {x : RampSub} {b : Nat} (h : c.state = .ramping x b) (ha : c.abortPending = none) : c.abortIdle = false := by
    rw [Context.abortIdle, h, ha]; rfl
  refine ⟨fun m x h => idle (by rw [Context.abortIdle, h]), fun x b h ha => idle ?_, fun h => ?_, fun b h ha => ⟨fun hatten => ?_,
    fun hatten => ?_⟩, fun x b h hx ha => ⟨fun ho => ?_, fun ho => ?_⟩, fun h => ?_⟩
  · rw [Context.abortIdle, h]; exact Option.isSome_iff_ne_none.2 ha
  · rw [acts (by rcases h with h | h | h <;> rw [Context.abortIdle, h]), abortEffect_neverLit h]
  · rw [acts (hnotIdle h ha), abortEffect_dark h hatten]
  · rw [acts (hnotIdle h ha), abortEffect_queued h hatten]
  · rw [acts (hnotIdle h ha), abortEffect_holder h hx, hout, if_pos (Option.isSome_iff_ne_none.2 ho)]
  · rw [acts (hnotIdle h ha), abortEffect_holder h hx, hout, ho]; rfl
  · rw [acts (by rcases h with h | h <;> rw [Context.abortIdle, h]), abortEffect_settled h]

/-- Settles O48: the load on entry by the state, and an expiry by the state that it finds. -/
theorem watchTimerExpiryAborts : Obligations.WatchTimerExpiryAborts := by
  refine ⟨fun s t i c st k len ht hk hlen => ?_, fun s i => ⟨fun hno => ?_, fun c w u e hc hw hu he => ?_⟩⟩
  · subst ht hk hlen
    refine ⟨(State.enter_context s i i c st).trans (if_pos rfl |>.trans ?_), fun j hj => ?_, fun x j => ?_, rfl⟩
    · cases st <;> rfl
    · rw [State.enter_context, if_neg (Ne.symm hj)]
    · exact s.enter_changed_eq i j c st x
  · refine congrArg Host.Outcome.next ?_
    split
    next c hc =>
      split
      next h0 _ => exact absurd h0 (hno c hc)
      · rfl
    · rfl
  · have hexec (ht : c.state.timed = some w) : exec (.watchTimerExpiry i) s = .next (u.abortEffect i c e) := by
      refine congrArg Host.Outcome.next ?_
      rw [hc]
      dsimp only
      rw [hw, ht, hu, he]; rfl
    refine ⟨fun hst => ?_, fun hst hw => ?_⟩
    · simp only [List.mem_cons, Prod.mk.injEq, List.not_mem_nil, or_false] at hst
      have htimed : c.state.timed = some w := by rcases hst with ⟨h, rfl⟩ | ⟨h, rfl⟩ | ⟨h, rfl⟩ <;> rw [h] <;> rfl
      rw [hexec htimed, abortEffect_neverLit (hst.imp And.left (Or.imp And.left And.left))]
    · rw [hexec (by rw [hst, hw]; rfl), abortEffect_settled (.inl hst)]

/-- Settles O50: by induction down the line. -/
theorem admissionIsFirstInFirstOut : Obligations.AdmissionIsFirstInFirstOut := by
  intro s p hnodup hwait
  obtain ⟨admitted, waiting, h⟩ := admitLoop_admits _ s rfl hnodup hwait
  exact ⟨_, admitted, waiting, rfl, h.line, h.point, h.points, h.changed, h.rest, h.record, h.others, h.load, h.within, h.stops⟩
end

section
/-! ## Commands that read a block, set the timing or release a record (R31, R38, R165, R175) -/

namespace Sys2Proof.Machine

/-! ### Flag bytes (R180) -/

theorem getLsbD_flag (b : Bool) {k : Nat} (hk : k < 8) (j : Nat) :
    (if b then 1#8 <<< k else 0 : Byte).getLsbD j = (b && decide (j = k)) := by
  cases b
  · simp
  · simp only [if_true, BitVec.getLsbD_shiftLeft, BitVec.getLsbD_one, Bool.true_and]
    by_cases h : j = k
    · subst h; simp [hk]
    · simp only [h, decide_false]
      by_cases hlt : j < k
      · simp [hlt]
      · have : j - k ≠ 0 := by omega
        simp [this]

/-- The live count is over the records that are neither FREE nor ENDED (R23, R175). -/
theorem State.liveCount_eq (s : State) :
    s.liveCount = (List.finRange 48).countP fun i => (s.context i).any fun c => c.state != .ended := by
  have hlist : s.contexts.toList = (List.finRange 48).map s.context :=
    List.ext_getElem (by simp) fun k h1 h2 => by simp [State.context]
  unfold State.liveCount
  rw [hlist, List.countP_map]
  refine List.countP_congr fun i _ => ?_
  simp only [Function.comp_apply]
  cases s.context i <;> rfl

/-! ### Selectors (R38) -/

theorem word32At_selector (kind : Byte) (v : Word32) : word32At (kind :: bytes32 v) 1 = v := word32_bytes32 v

theorem contextArg_val (i : CtxIx) : contextArg i.val = some i := dif_pos i.isLt

theorem contextArg_eq_none {n : Nat} (h : 47 < n) : contextArg n = none := dif_neg (by omega)

theorem byteAt_cons_zero (b : Byte) (l : List Byte) : byteAt (b :: l) 0 = b := rfl

theorem readContextBody_badKind {kind : Byte} (h : 1 < kind.toNat) (st : Station) (v : Word32) (s : State) :
    readContextBody st (kind :: bytes32 v) s = .refused .badArgument := by
  have h0 : kind ≠ 0 := by rintro rfl; simp at h
  have h1 : kind ≠ 1 := by rintro rfl; simp at h
  unfold readContextBody
  rw [byteAt_cons_zero]
  dsimp only
  rw [if_neg h0, if_neg h1]

theorem readContextBody_byIndex {i : CtxIx} {v : Word32} (h : v.toNat = i.val) (st : Station) (s : State) :
    readContextBody st (0 :: bytes32 v) s = .accepted s (s.contextBlock i) := by
  unfold readContextBody
  rw [byteAt_cons_zero, word32At_selector]
  dsimp only
  rw [if_pos rfl, h, contextArg_val]

theorem readContextBody_badIndex {v : Word32} (h : 47 < v.toNat) (st : Station) (s : State) :
    readContextBody st (0 :: bytes32 v) s = .refused .badArgument := by
  unfold readContextBody
  rw [byteAt_cons_zero, word32At_selector]
  dsimp only
  rw [if_pos rfl, contextArg_eq_none h]

theorem readContextBody_byId (v : Word32) (st : Station) (s : State) : readContextBody st (1 :: bytes32 v) s =
    .accepted s (((s.findById v).map s.contextBlock).getD [0xFF]) := by
  unfold readContextBody
  rw [byteAt_cons_zero, word32At_selector]
  dsimp only
  rw [if_neg (by decide), if_pos rfl]
  cases s.findById v <;> rfl

section
variable {s : State} {v : Word32}

theorem findById_live {i : CtxIx} {c : Context} (h : TheLive s v i c) : s.findById v = some i := by
  unfold State.findById; rw [State.findLive_eq_some h]

/-- The ENDED record that ended last is the last in the ended list with the ID (R30, R38). -/
theorem findById_ended {older newer : List CtxIx} {i : CtxIx} {c : Context} (h : NoneLive s v)
    (hlist : s.endedList = older ++ i :: newer) (hc : s.context i = some c) (hid : c.lightpathId = v)
    (hnewer : ∀ j ∈ newer, ∀ c ∈ s.context j, c.lightpathId ≠ v) : s.findById v = some i := by
  unfold State.findById
  rw [State.findLive_eq_none_iff.2 h]
  refine List.find?_eq_some_iff_append.2 ⟨by simp [hc, hid], newer.reverse, older.reverse, by simp [hlist], fun j hj => ?_⟩
  cases hx : s.context j with
  | none => rfl
  | some x => simpa using hnewer j (List.mem_reverse.1 hj) x hx

theorem findById_none (h : NoneLive s v) (hended : ∀ j ∈ s.endedList, ∀ c ∈ s.context j, c.lightpathId ≠ v) :
    s.findById v = none := by
  unfold State.findById
  rw [State.findLive_eq_none_iff.2 h]
  refine List.find?_eq_none.2 fun j hj => ?_
  cases hx : s.context j with
  | none => simp
  | some x => simpa using hended j (List.mem_reverse.1 hj) x hx

end

/-! ### The context block (R180) -/

section
variable (i : CtxIx) (c : Context)

theorem optByte_backoffs : optByte byte c.state.backoffs = match c.state with
    | .ramping _ n => byte n
    | _ => 0xFF := by
  cases c.state <;> rfl

theorem measured_bytes : opt16 (fun m : Measured => int16 m.power) c.lastMeasured ++ [optByte Measured.marks c.lastMeasured] =
    (c.lastMeasured.map fun m => int16 m.power ++ [(if m.floor then 1 else 0) + if m.saturated then 2 else 0]).getD
      [0xFF, 0xFF, 0xFF] := by
  cases c.lastMeasured with
  | none => rfl
  | some m =>
    have hmarks : m.marks = (if m.floor then 1 else 0) + if m.saturated then 2 else 0 := by
      unfold Measured.marks
      cases m.floor <;> cases m.saturated <;> rfl
    simp [opt16, optByte, hmarks]

theorem reference_bytes : opt16 (fun r : Reference => int16 r.power) c.reference ++ [optByte Reference.marks c.reference] =
    (c.reference.map fun r => int16 r.power ++ [if r.floor then 1 else 0]).getD [0xFF, 0xFF, 0xFF] := by
  cases c.reference <;> rfl

theorem ending_bytes : [optByte (fun e : Ending => e.cause.code) c.ending, optByte (fun e : Ending => e.origin.code) c.ending] ++
    opt16 (fun e : Ending => bytes16 e.originNode) c.ending ++ [optByte byte (c.ending.bind Ending.hop)] ++
    opt16 nat16 (c.ending.bind Ending.conflictSlot) ++ [optByte TimedState.code (c.ending.bind Ending.timedOut)] =
    (c.ending.map fun e => [e.cause.code, e.origin.code] ++ bytes16 e.originNode ++ [(e.hop.map byte).getD 0xFF] ++
      (e.conflictSlot.map nat16).getD [0xFF, 0xFF] ++ [(e.timedOut.map TimedState.code).getD 0xFF]).getD
        (List.replicate 8 0xFF) := by
  cases c.ending <;> rfl

theorem opt16_length {α : Type} {f : α → List Byte} (h : ∀ a, (f a).length = 2) (o : Option α) : (opt16 f o).length = 2 := by
  cases o with
  | none => rfl
  | some a => exact h a

theorem opt32_length {α : Type} {f : α → List Byte} (h : ∀ a, (f a).length = 4) (o : Option α) : (opt32 f o).length = 4 := by
  cases o with
  | none => rfl
  | some a => exact h a

theorem journalBytes_length (j : List JournalRecord) : (j.flatMap fun r => [r.before.code, r.after.code]).length = 2 * j.length := by
  simp [List.length_flatMap]; omega

theorem nat16_length (n : Nat) : (nat16 n).length = 2 := rfl

theorem int16_length (n : Int) : (int16 n).length = 2 := rfl

theorem bytes16_length (w : Word16) : (bytes16 w).length = 2 := rfl

theorem nat32_length (n : Nat) : (nat32 n).length = 4 := rfl

theorem bytes32_length (w : Word32) : (bytes32 w).length = 4 := rfl

theorem Context.block_length : (c.block i).length = 48 + 2 * c.journal.length + (c.route.getD []).length := by
  have hmeasured := opt16_length (f := fun m : Measured => int16 m.power) (fun _ => int16_length _) c.lastMeasured
  have hreference := opt16_length (f := fun r : Reference => int16 r.power) (fun _ => int16_length _) c.reference
  have hnode := opt16_length (f := fun e : Ending => bytes16 e.originNode) (fun _ => bytes16_length _) c.ending
  unfold Context.block
  simp only [List.length_append, journalBytes_length]
  simp only [List.length_cons, List.length_nil, nat16_length, int16_length, bytes32_length, opt32_length nat32_length,
    opt16_length nat16_length, hmeasured, hreference, hnode]

theorem Context.flagByte_getLsbD (k : Nat) : c.flagByte.getLsbD k =
    (c.adopted && decide (k = 0) || c.rampOnClear.getD false && decide (k = 1) || c.abortPending.isSome && decide (k = 2) ||
      c.charge.isSome && decide (k = 3) || c.lastMeasured.isSome && decide (k = 4) || c.reference.isSome && decide (k = 5)) := by
  simp (disch := omega) only [Context.flagByte, BitVec.getLsbD_or, getLsbD_flag]

/-- The block of a record in the groups of its layout (R180). -/
theorem Context.block_eq : c.block i =
    [indexByte i, c.state.code, c.state.subCode, c.sides.role.code, c.flagByte] ++
    bytes32 c.lightpathId ++ [indexByte c.owner, c.sides.ingressByte, c.sides.egressByte, indexByte c.point] ++
    nat16 c.run.first ++ [byte c.run.width, (c.hopIndex.map byte).getD 0xFF, (c.routeLength.map byte).getD 0xFF] ++
    int16 c.target ++ [byte c.window, (c.baseStep.map byte).getD 0xFF, (c.step.map byte).getD 0xFF, c.attenuation.code,
      match c.state with
      | .ramping _ n => byte n
      | _ => 0xFF] ++
    (c.charge.map nat32).getD [0xFF, 0xFF, 0xFF, 0xFF] ++
    ((c.lastMeasured.map fun m => int16 m.power ++ [(if m.floor then 1 else 0) + if m.saturated then 2 else 0]).getD
      [0xFF, 0xFF, 0xFF]) ++
    ((c.reference.map fun r => int16 r.power ++ [if r.floor then 1 else 0]).getD [0xFF, 0xFF, 0xFF]) ++
    (c.watchTimer.map nat32).getD [0xFF, 0xFF, 0xFF, 0xFF] ++
    ((c.ending.map fun e => [e.cause.code, e.origin.code] ++ bytes16 e.originNode ++ [(e.hop.map byte).getD 0xFF] ++
      (e.conflictSlot.map nat16).getD [0xFF, 0xFF] ++ [(e.timedOut.map TimedState.code).getD 0xFF]).getD
        (List.replicate 8 0xFF)) ++
    [byte c.journal.length] ++ c.journal.flatMap (fun r => [r.before.code, r.after.code]) ++ c.route.getD [] := by
  rw [← measured_bytes, ← reference_bytes, ← ending_bytes, ← optByte_backoffs]
  have hbyte (o : Option Nat) : (o.map byte).getD 0xFF = optByte byte o := rfl
  have hnat (o : Option Nat) : (o.map nat32).getD [0xFF, 0xFF, 0xFF, 0xFF] = opt32 nat32 o := rfl
  unfold Context.block
  simp only [hbyte, hnat, List.append_assoc]
  simp only [List.cons_append, List.nil_append]

end

theorem CtxState.subCode_eq (st : CtxState) : st.subCode = match st with
    | .ramping .queued _ => 0x01 | .ramping .actuating _ => 0x02 | .ramping .settling _ => 0x03 | .ramping .backoff _ => 0x04
    | .retiring .gradual .queued => 0x11 | .retiring .gradual .actuating => 0x12 | .retiring .gradual .settling => 0x13
    | .retiring .hard .queued => 0x21 | .retiring .hard .actuating => 0x22 | .retiring .hard .settling => 0x23
    | _ => 0 := by
  unfold CtxState.subCode; split <;> rfl

/-! ### A refused release (R161, R170) -/

theorem release_refused {s : State} {st : Station} {n : Byte} {r : ReplyCause} (h : Executes s st 0x24 [n])
    (hb : releaseBody st [n] (s.taken st) = .refused r) :
    exec .releaseContext s = .next ((s.taken st).refusing st 0x24 r.code r.detail) := runCommand_refused h rfl rfl rfl hb

/-! ### Timing values (R35, R165) -/

theorem timingValue_eq {args : List Byte} {n : Nat} {w : Word32} (h : word32At args (1 + 4 * n) = w) (lo hi present : Nat) :
    timingValue args n lo hi present = if (byteAt args 0).getLsbD n then max lo (min hi w.toNat) else present := by
  rw [timingValue, h]; rfl

end Sys2Proof.Machine

open Sys2Proof Sys2Proof.Machine

/-- Settles O13: the reply is the node's data, and each flag is a bit of its flags byte. -/
theorem readNodeReportsAndClearsAlerts : Obligations.ReadNodeReportsAndClearsAlerts := by
  refine ⟨fun c => by simp [Context.live], State.liveCount_eq, fun s st h => ⟨s.alerts.byte, ?_, ?_⟩⟩
  · refine (runCommand_accepted h rfl rfl rfl (rfl : readNodeBody st [] (s.taken st) = _)).trans ?_
    simp only [State.nodeData, Timing.bytes, List.append_assoc]
    rfl
  · have hbit (k : Nat) : s.alerts.byte.getLsbD k = (s.alerts.overrun && decide (k = 0) || s.alerts.linkDown && decide (k = 1) ||
        s.alerts.monitor && decide (k = 2) || s.alerts.actuator && decide (k = 3) || s.alerts.darkUnconfirmed && decide (k = 4)) := by
      simp (disch := omega) only [Alerts.byte, BitVec.getLsbD_or, getLsbD_flag]
    refine ⟨by rw [hbit]; simp, by rw [hbit]; simp, by rw [hbit]; simp, by rw [hbit]; simp, by rw [hbit]; simp, fun k hk => ?_⟩
    rw [hbit]
    simp [show k ≠ 0 by omega, show k ≠ 1 by omega, show k ≠ 2 by omega, show k ≠ 3 by omega, show k ≠ 4 by omega]

/-- Settles O14: the selector's cases, and the block group by group. -/
theorem readContextFindsTheRecord : Obligations.ReadContextFindsTheRecord := by
  refine ⟨fun s st kind v h hk => runCommand_refused h rfl rfl rfl (readContextBody_badKind hk st v _), fun s st v =>
    ⟨fun h => ⟨fun i hi => runCommand_accepted h rfl rfl rfl (readContextBody_byIndex hi st _),
      fun hv => runCommand_refused h rfl rfl rfl (readContextBody_badIndex hv st _)⟩, fun h => ?_⟩, fun s i => ⟨fun hc => ?_,
    fun c hc => ⟨c.flagByte, c.state.code, c.state.subCode, c.sides.role.code, ?_⟩⟩, ⟨rfl, fun _ => rfl⟩,
    fun _ _ _ => ⟨rfl, rfl, rfl, rfl, rfl, rfl⟩, by decide, by decide⟩
  · have found (i : CtxIx) (hf : (s.taken st).findById v = some i) :
        exec .readContext s = .next ((s.taken st).accepting st 0x02 (s.contextBlock i)) :=
      runCommand_accepted h rfl rfl rfl ((readContextBody_byId v st _).trans (by rw [hf]; rfl))
    refine ⟨fun i c hi => found i (findById_live (s := s.taken st) ⟨hi.record, hi.live, hi.carries, hi.only⟩),
      fun older i newer hnone hlist hi hnewer => ?_, fun hnone hended => ?_⟩
    · obtain ⟨c, hc, hid⟩ := hi
      exact found i (findById_ended (s := s.taken st) hnone hlist hc hid hnewer)
    · refine runCommand_accepted h rfl rfl rfl ((readContextBody_byId v st _).trans ?_)
      rw [findById_none (s := s.taken st) hnone hended]; rfl
  · unfold State.contextBlock; rw [hc]
  · have hblock : s.contextBlock i = c.block i := by unfold State.contextBlock; rw [hc]
    rw [hblock]
    refine ⟨c.block_eq i, c.block_length i, ?_, c.state.subCode_eq, ?_, ?_, ?_, ?_, ?_, ?_, ?_, fun k hk => ?_⟩
    · cases c.state <;> rfl
    · cases c.sides <;> rfl
    case refine_9 =>
      rw [Context.flagByte_getLsbD]
      simp [show k ≠ 0 by omega, show k ≠ 1 by omega, show k ≠ 2 by omega, show k ≠ 3 by omega, show k ≠ 4 by omega,
        show k ≠ 5 by omega]
    all_goals rw [Context.flagByte_getLsbD]; simp

/-- Settles O19: each value is clamped to its range where its presence bit is set. -/
theorem setTimingClampsAndWrites : Obligations.SetTimingClampsAndWrites := by
  intro s presence a b c d e f g h
  refine ⟨s.timing.written _, runCommand_accepted h rfl rfl rfl (stationZero_zero _ _ _), timingValue_eq ?_ _ _ _,
    timingValue_eq ?_ _ _ _, timingValue_eq ?_ _ _ _, timingValue_eq ?_ _ _ _, timingValue_eq ?_ _ _ _, timingValue_eq ?_ _ _ _,
    timingValue_eq ?_ _ _ _⟩ <;> exact word32_bytes32 _

/-- Settles O30: the checks in their order, and the parts of the release. -/
theorem releaseFreesAnEndedRecord : Obligations.ReleaseFreesAnEndedRecord := by
  refine ⟨fun s st n h hn => ?_, fun s st i h => ?_⟩
  · refine release_refused (r := .badArgument) h ?_
    unfold releaseBody
    rw [byteAt_cons_zero, contextArg_eq_none hn]
  have harg : contextArg (byteAt [indexByte i] 0).toNat = some i := by
    rw [byteAt_cons_zero, indexByte_toNat i (by omega), contextArg_val]
  have hbody : releaseBody st [indexByte i] (s.taken st) = match s.context i with
      | none => .refused .wrongState
      | some c =>
        if c.state ≠ .ended then .refused .wrongState
        else if !ownerOrZero st c then .refused .notPermitted
        else .accepted (((s.taken st).forget i).setContext i none) [indexByte i] := by
    unfold releaseBody; rw [harg]; rfl
  refine ⟨fun hall => ?_, fun c hc hst => ⟨fun h1 h2 => ?_, fun hown => ?_⟩⟩
  · refine release_refused (r := .wrongState) h (hbody.trans ?_)
    cases hc : s.context i with
    | none => rfl
    | some c =>
      rw [hc] at hall
      exact if_pos (by simpa using hall)
  · refine release_refused (r := .notPermitted) h (hbody.trans ?_)
    rw [hc]
    simp [hst, ownerOrZero, h1, h2]
  · have haccepted : releaseBody st [indexByte i] (s.taken st) =
        .accepted (((s.taken st).forget i).setContext i none) [indexByte i] := by
      rw [hbody, hc]
      have howner : ownerOrZero st c = true := by simpa [ownerOrZero] using hown
      simp [hst, howner]
    refine ⟨_, runCommand_accepted h rfl rfl rfl haccepted, ?_, fun j hj => ?_, rfl, fun x j => ?_, rfl⟩
    · exact State.setContext_context_self ((s.taken st).forget i) i none
    · exact (State.setContext_context ((s.taken st).forget i) i j none).trans (if_neg (Ne.symm hj))
    · refine ((s.taken st).forget_changed i j x).trans ?_
      by_cases hj : j = i
      · simp [hj]
      · simp [hj, Ne.symm hj]
end

section
/-! ## Frames that are offered, complete and depart (R129, R130, R132) -/

namespace Sys2Proof.Machine

/-! ### The receive status (R129, R181) -/

section
variable {kind declared : Byte} {rest : List Byte}

theorem receiveStatus_short (h : (kind :: declared :: rest).length < declared.toNat) :
    receiveStatus (kind :: declared :: rest) = .truncated ∧ frameBytes (kind :: declared :: rest) = kind :: declared :: rest :=
  ⟨if_pos h, List.take_of_length_le (by omega)⟩

/-- The check of a whole frame decides its status (R129). -/
theorem receiveStatus_whole (h : ¬(kind :: declared :: rest).length < declared.toNat) : receiveStatus (kind :: declared :: rest) =
    if 3 ≤ declared.toNat ∧ frameCheck ((kind :: declared :: rest).take (declared.toNat - 2)) =
      word16At (kind :: declared :: rest) (declared.toNat - 2) then .ok else .crcBad := if_neg h

theorem word16_high (hi lo : Byte) : (word16 hi lo >>> 8).setWidth 8 = hi := by
  apply BitVec.eq_of_getLsbD_eq
  intro i hlt
  simp only [word16, BitVec.getLsbD_setWidth, BitVec.getLsbD_ushiftRight, BitVec.getLsbD_append, hlt]
  simp

/-- No check over a kind alone begins with the byte 3 (R181, log entry 8). -/
theorem frameCheck_singleton_ne : ∀ kind : Byte, (frameCheck [kind] >>> 8).setWidth 8 ≠ 3#8 := by decide

/-- A frame declared below 4 bytes is too short for its check (log entry 8). -/
theorem receiveStatus_tiny (h4 : declared.toNat < 4) (h : ¬(kind :: declared :: rest).length < declared.toNat) :
    receiveStatus (kind :: declared :: rest) = .crcBad := by
  rw [receiveStatus_whole h]
  refine if_neg fun ⟨h3, hcheck⟩ => ?_
  have hthree : declared.toNat = 3 := by omega
  rw [hthree] at hcheck
  have hhigh : (frameCheck [kind] >>> 8).setWidth 8 = declared :=
    (congrArg (fun w : Word16 => (w >>> 8).setWidth 8) hcheck).trans (word16_high _ _)
  exact frameCheck_singleton_ne kind (hhigh.trans (BitVec.eq_of_toNat_eq hthree))

end

/-- What lies past the declared length is no part of a frame, and the last two bytes are its check (R129, R181). -/
theorem receiveStatus_split {kind declared hi lo : Byte} {rest text past : List Byte}
    (hbytes : kind :: declared :: rest = text ++ [hi, lo] ++ past) (hlen : text.length + 2 = declared.toNat) (h2 : 2 ≤ text.length) :
    frameBytes (kind :: declared :: rest) = text ++ [hi, lo] ∧
      receiveStatus (kind :: declared :: rest) = if word16 hi lo = frameCheck text then .ok else .crcBad := by
  have hwhole : ¬(kind :: declared :: rest).length < declared.toNat := by
    rw [hbytes]; simp only [List.length_append, List.length_cons, List.length_nil]; omega
  have hdrop : declared.toNat - 2 = text.length := by omega
  have htext : (text ++ [hi, lo] ++ past).take text.length = text := by simp
  have hword : word16At (text ++ [hi, lo] ++ past) text.length = word16 hi lo := by
    simp [word16At, byteAt]
  constructor
  · refine (congrArg (List.take _) hbytes).trans (List.take_left' ?_)
    simp only [List.length_append, List.length_cons, List.length_nil]; omega
  · rw [receiveStatus_whole hwhole, hdrop, hbytes, htext, hword]
    simp only [show 3 ≤ declared.toNat by omega, true_and, eq_comm]

/-! ### Completions and departures (R129, R130, R132) -/

section
variable {s : State} {d : Degree}

theorem receive_room {f : RxFrame} (h : (s.link d).state = .up ∨ (s.link d).state = .down) (hroom : (s.link d).rx.length < 4) :
    s.receive d f = s.modLink d fun l => { l with rx := l.rx ++ [f] } := by
  unfold State.receive
  rw [if_pos (by rcases h with h | h <;> rw [h] <;> rfl), if_pos hroom]

theorem receive_full {f : RxFrame} (h : (s.link d).state = .up ∨ (s.link d).state = .down) (hfull : 4 ≤ (s.link d).rx.length) :
    s.receive d f = (s.modLink d fun l => { l with overrun := true, overruns := countUp l.overruns }).raiseOverrun := by
  unfold State.receive
  rw [if_pos (by rcases h with h | h <;> rw [h] <;> rfl), if_neg (by omega)]

theorem receive_closed {f : RxFrame} (h : (s.link d).state = .disabled ∨ (s.link d).state = .draining) : s.receive d f = s := by
  unfold State.receive
  rw [if_neg (by rcases h with h | h <;> rw [h] <;> nofun)]

theorem depart_head {f : Frame} {rest : List Frame} (hf : (s.link d).tx = f :: rest)
    (h : (s.link d).state = .up ∨ (s.link d).state = .draining) : s.depart d = { s.modLink d fun l =>
      { l with tx := rest, state := if l.state = .draining ∧ rest = [] then .disabled else l.state } with
        outputs := s.outputs ++ [.frame d f.encode] } := by
  have hlink : s.modLink d Link.depart = s.modLink d fun l =>
      { l with tx := rest, state := if l.state = .draining ∧ rest = [] then .disabled else l.state } := by
    have htail : (s.links[d]).tx.tail = rest := congrArg List.tail hf
    unfold State.modLink Link.depart
    rw [htail]
  unfold State.depart
  rw [hf]
  dsimp only
  rw [if_pos (by rcases h with h | h <;> rw [h] <;> rfl), hlink]

theorem depart_none (h : (s.link d).tx = [] ∨ (s.link d).state = .down ∨ (s.link d).state = .disabled) : s.depart d = s := by
  unfold State.depart
  split
  next f rest hf =>
    have hstate := h.resolve_left (by rw [hf]; nofun)
    rw [if_neg (by rcases hstate with h | h <;> rw [h] <;> nofun)]
  · rfl

end
end Sys2Proof.Machine

open Sys2Proof Sys2Proof.Machine

/-- Settles O32: the status by the declared length, and the links' own branches for the rest. -/
theorem framesCompleteAndDepart : Obligations.FramesCompleteAndDepart := by
  refine ⟨fun _ _ _ _ => rfl, fun _ _ _ _ => ⟨rfl, rfl⟩, fun bytes => ⟨fun hshort => ?_, fun kind declared rest hbytes => ?_⟩,
    fun s d bytes => ⟨fun h => ⟨fun hroom => congrArg Host.Outcome.next (receive_room h hroom),
      fun hfull => congrArg Host.Outcome.next (receive_full h hfull)⟩, fun h => congrArg Host.Outcome.next (receive_closed h)⟩,
    fun s d => ⟨fun f rest hf h => congrArg Host.Outcome.next (depart_head hf h),
      fun h => congrArg Host.Outcome.next (depart_none h)⟩⟩
  · match bytes, hshort with
    | [], _ => exact ⟨rfl, rfl⟩
    | [_], _ => exact ⟨rfl, rfl⟩
  · subst hbytes
    refine ⟨receiveStatus_short, fun h4 hle => ⟨receiveStatus_tiny h4 (by omega), rfl⟩, fun text hi lo past hsplit hlen h2 => ?_⟩
    obtain ⟨hframe, hstatus⟩ := receiveStatus_split hsplit hlen h2
    exact ⟨hframe, fun h => hstatus.trans (if_pos h), fun h => hstatus.trans (if_neg h)⟩
end

section
/-! ## The Conversion Unit (R41, R42) -/

namespace Sys2Proof.Machine

/-! ### The forward conversion by its digits (R41) -/

/-- The mantissas of one decade rise. -/
theorem mantissa_lt_succ : ∀ k < 99, mantissa (k / 10) (k % 10) < mantissa ((k + 1) / 10) ((k + 1) % 10) := by decide

theorem forwardAt_eq {decade k : Nat} (hk : k < 100) : forwardAt (100 * decade + k) = mantissa (k / 10) (k % 10) * 10 ^ decade := by
  have hunit : (100 * decade + k) / 10 % 10 = k / 10 := by omega
  have htenth : (100 * decade + k) % 10 = k % 10 := by omega
  have hdecade : (100 * decade + k) / 100 = decade := by omega
  rw [forwardAt, hunit, htenth, hdecade]

theorem forwardAt_lt_succ (e : Nat) : forwardAt e < forwardAt (e + 1) := by
  obtain ⟨decade, k, hk, rfl⟩ : ∃ decade k, k < 100 ∧ e = 100 * decade + k := ⟨e / 100, e % 100, by omega, by omega⟩
  have hpos : 0 < 10 ^ decade := Nat.pow_pos (by omega)
  by_cases hlast : k = 99
  · subst hlast
    rw [show 100 * decade + 99 + 1 = 100 * (decade + 1) + 0 by omega, forwardAt_eq hk, forwardAt_eq (by omega), Nat.pow_succ,
      Nat.mul_comm (10 ^ decade), ← Nat.mul_assoc]
    exact Nat.mul_lt_mul_of_pos_right (by decide) hpos
  · rw [Nat.add_assoc, forwardAt_eq hk, forwardAt_eq (by omega)]
    exact Nat.mul_lt_mul_of_pos_right (mantissa_lt_succ k (by omega)) hpos

/-- A higher power converts to a higher linear value. -/
theorem forwardAt_strictMono : StrictMono forwardAt := strictMono_nat_of_lt_succ forwardAt_lt_succ

theorem forwardAt_zero : forwardAt 0 = 1000 := by decide

theorem forwardAt_650 : forwardAt 650 = maxLinear := by decide

theorem forward_natCast_sub (e : Nat) : forward (e - 400 : Int) = forwardAt e := by
  rw [forward, show ((e : Int) - 400 + 400).toNat = e by omega]

theorem forward_lt_forward {c d : Int} (hc : -400 ≤ c) (h : c < d) : forward c < forward d :=
  forwardAt_strictMono (by omega)

/-- No power in range converts to less than 1000 LU. -/
theorem le_forward (d : Int) : 1000 ≤ forward d := forwardAt_zero ▸ forwardAt_strictMono.monotone (Nat.zero_le _)

/-- The nearest whole number, a half rounded up. -/
theorem mantissa_eq {unit tenth m u f : Nat} (hu : unitTable[unit]? = some u) (hf : tenthTable[tenth]? = some f)
    (hlo : 1000 * m ≤ u * f + 500) (hhi : u * f + 500 < 1000 * (m + 1)) : mantissa unit tenth = m := by
  rw [mantissa, List.getD_eq_getElem?_getD, List.getD_eq_getElem?_getD, hu, hf, Option.getD_some, Option.getD_some]
  omega

/-! ### The reverse conversion (R42) -/

theorem reverse_floor {sum : Nat} (h : sum < 1000) : reverse sum = ⟨-400, true, false⟩ := if_pos h

theorem reverse_saturated {sum : Nat} (h : maxLinear < sum) : reverse sum = ⟨250, false, true⟩ := by
  rw [reverse, if_neg (by unfold maxLinear at h; omega), if_pos h]

/-- The reverse conversion is the first entry of the table that is enough. -/
theorem reverse_eq {sum e : Nat} (hlo : 1000 ≤ sum) (he : e ≤ 650) (henough : sum ≤ forwardAt e)
    (hleast : ∀ j < e, forwardAt j < sum) : reverse sum = ⟨e - 400, false, false⟩ := by
  have hmax : sum ≤ maxLinear := henough.trans (forwardAt_650 ▸ forwardAt_strictMono.monotone he)
  have hfind : ((List.range 651).find? fun e => sum ≤ forwardAt e) = some e := by
    rw [List.find?_range_eq_some]
    exact ⟨by simpa using henough, by simpa using by omega, fun j hj => by simpa using hleast j hj⟩
  rw [reverse, if_neg (by omega), if_neg (by omega), hfind]
  rfl

/-- A convertible sum has a least power that is enough. -/
theorem exists_least_forwardAt {sum : Nat} (hhi : sum ≤ maxLinear) : ∃ e ≤ 650, sum ≤ forwardAt e ∧ ∀ j < e, forwardAt j < sum := by
  have hex : ∃ e, sum ≤ forwardAt e := ⟨650, forwardAt_650 ▸ hhi⟩
  exact ⟨Nat.find hex, Nat.find_min' hex (forwardAt_650 ▸ hhi), Nat.find_spec hex, fun j hj => not_le.1 (Nat.find_min hex hj)⟩

end Sys2Proof.Machine

open Sys2Proof Sys2Proof.Machine

/-- Settles O53: the digits of a power index the tables, and both conversions follow from the table's being strictly increasing. -/
theorem conversionsFollowTheTables : Obligations.ConversionsFollowTheTables := by
  refine ⟨fun decade unit tenth m u f _ _ hu hf hlo hhi => ?_, fun c d hc hcd _ => forward_lt_forward hc hcd,
    fun _ => reverse_floor, fun _ => reverse_saturated, fun sum hlo hhi => ?_, fun d hlo hhi => ?_⟩
  · have hunit : unit < 10 := (List.getElem?_eq_some_iff.1 hu).1
    have htenth : tenth < 10 := (List.getElem?_eq_some_iff.1 hf).1
    rw [forward_natCast_sub, Nat.add_assoc, forwardAt_eq (by omega), show (10 * unit + tenth) / 10 = unit by omega,
      show (10 * unit + tenth) % 10 = tenth by omega, mantissa_eq hu hf hlo hhi]
  · obtain ⟨e, he, henough, hleast⟩ := exists_least_forwardAt hhi
    rw [reverse_eq hlo he henough hleast]
    refine ⟨rfl, rfl, by dsimp only; omega, by dsimp only; omega, by rwa [forward_natCast_sub], fun d hd hde => ?_⟩
    exact hleast _ (by dsimp only at hde; omega)
  · obtain ⟨e, rfl⟩ : ∃ e : Nat, d = e - 400 := ⟨(d + 400).toNat, by omega⟩
    have hlow := le_forward (e - 400)
    rw [forward_natCast_sub] at hlow ⊢
    exact reverse_eq hlow (by omega) le_rfl fun j hj => forwardAt_strictMono hj
end

section
/-! ## The load of each point against the charges there (R53): sums -/

namespace Sys2Proof.Machine

namespace State

variable {s t : State} {i : CtxIx} {c d : Context} {p : PointIx}

theorem chargeAt_of_context (hc : s.context i = some c) (p : PointIx) :
    s.chargeAt p i = if c.point = p then c.charge.getD 0 else 0 := by simp only [State.chargeAt, hc]

theorem chargeAt_of_none (hc : s.context i = none) (p : PointIx) : s.chargeAt p i = 0 := by simp only [State.chargeAt, hc]

theorem chargeAt_of_uncharged (hc : s.context i = some c) (hq : c.charge = none) (p : PointIx) : s.chargeAt p i = 0 := by
  rw [chargeAt_of_context hc, hq]; exact ite_self 0

theorem chargeAt_congr (h : t.context i = s.context i) (p : PointIx) : t.chargeAt p i = s.chargeAt p i := by
  simp only [State.chargeAt, h]

/-- Two records at one point with one charge are counted alike. -/
theorem chargeAt_alike (hc : s.context i = some c) (hd : t.context i = some d) (hs : d.sides = c.sides) (hq : d.charge = c.charge)
    (p : PointIx) : t.chargeAt p i = s.chargeAt p i := by
  rw [chargeAt_of_context hc, chargeAt_of_context hd, Context.point, Context.point, hs, hq]

theorem chargeSum_eq_sum (s : State) (p : PointIx) : s.chargeSum p = ∑ i : CtxIx, s.chargeAt p i := (Fin.sum_univ_def _).symm

theorem chargeAt_le_chargeSum (s : State) (p : PointIx) (i : CtxIx) : s.chargeAt p i ≤ s.chargeSum p := by
  rw [chargeSum_eq_sum]
  exact Finset.single_le_sum (f := s.chargeAt p) (fun _ _ => Nat.zero_le _) (Finset.mem_univ i)

/-- Where one record changes, the sum of the charges changes by what that record is counted for. -/
theorem chargeSum_rewrite (hj : ∀ j, j ≠ i → t.context j = s.context j) (p : PointIx) :
    t.chargeSum p + s.chargeAt p i = s.chargeSum p + t.chargeAt p i := by
  have hrest : ∑ j ∈ Finset.univ.erase i, t.chargeAt p j = ∑ j ∈ Finset.univ.erase i, s.chargeAt p j :=
    Finset.sum_congr rfl fun j hm => chargeAt_congr (hj j (Finset.ne_of_mem_erase hm)) p
  have hs := Finset.sum_erase_add Finset.univ (s.chargeAt p) (Finset.mem_univ i)
  have ht := Finset.sum_erase_add Finset.univ (t.chargeAt p) (Finset.mem_univ i)
  rw [chargeSum_eq_sum, chargeSum_eq_sum, ← hs, ← ht, hrest]
  omega

end State

namespace LoadAgrees

variable {s t : State} {i : CtxIx} {c d : Context} {p : PointIx}

/-- No record is counted anew, and no load or limit changes. -/
theorem of_alike (h : LoadAgrees s) (hc : ∀ p j, t.chargeAt p j = s.chargeAt p j)
    (hl : ∀ p, (t.point p).load = (s.point p).load) (hlim : ∀ p, (t.point p).limit = (s.point p).limit) : LoadAgrees t := by
  intro p
  rw [hl, hlim, State.chargeSum, funext (hc p)]
  exact h p

theorem congr (h : LoadAgrees s) (hc : t.contexts = s.contexts) (hp : t.points = s.points) : LoadAgrees t := by
  refine h.of_alike (fun p j => State.chargeAt_congr (by simp only [State.context, hc]) p) (fun p => ?_) fun p => ?_ <;>
    simp only [State.point, hp]

/-- One record changes, and each load follows what it is counted for. -/
theorem rewrite (h : LoadAgrees s) (hj : ∀ j, j ≠ i → t.context j = s.context j)
    (hload : ∀ p, (t.point p).load + s.chargeAt p i = (s.point p).load + t.chargeAt p i)
    (hlimit : ∀ p, (t.point p).load ≤ forward (t.point p).limit) : LoadAgrees t := by
  intro p
  obtain ⟨hsum, -⟩ := h p
  have hnew := State.chargeSum_rewrite hj p
  have hp := hload p
  exact ⟨by omega, hlimit p⟩

/-- A charge is counted in its point's load. -/
theorem chargeAt_le (h : LoadAgrees s) (p : PointIx) (i : CtxIx) : s.chargeAt p i ≤ (s.point p).load := by
  rw [(h p).1]; exact s.chargeAt_le_chargeSum p i

end LoadAgrees
end Sys2Proof.Machine
end

section
/-! ## Turns, grants and measurements change no charge and no load -/

namespace Sys2Proof.Machine

theorem Context.refresh_sides (c : Context) (p : PointIx) : (c.refresh p).sides = c.sides := (c.refresh_follows p).sides

theorem Context.refresh_charge (c : Context) (p : PointIx) : (c.refresh p).charge = c.charge := by
  unfold Context.refresh; split <;> rfl

theorem Context.measure_charge (c : Context) (p : PointIx) (r : List Word16) : (c.measure p r).charge = c.charge := by
  unfold Context.measure; split <;> rfl

theorem Context.turned_sides (c : Context) (m : Mode) : (c.turned m).sides = c.sides := by cases m <;> rfl

theorem Context.turned_charge (c : Context) (m : Mode) : (c.turned m).charge = c.charge := by cases m <;> rfl

namespace LoadAgrees

variable {s : State} {i : CtxIx} {c d : Context} {p : PointIx}

theorem setContext (h : LoadAgrees s) (hc : s.context i = some c) (hs : d.sides = c.sides) (hq : d.charge = c.charge) :
    LoadAgrees (s.setContext i (some d)) := by
  refine h.of_alike (fun p j => ?_) (fun _ => rfl) fun _ => rfl
  by_cases hj : i = j
  · subst hj; exact State.chargeAt_alike hc (s.setContext_context_self i _) hs hq p
  · exact State.chargeAt_congr ((s.setContext_context i j _).trans (if_neg hj)) p

theorem enter (h : LoadAgrees s) (hc : s.context i = some c) (hs : d.sides = c.sides) (hq : d.charge = c.charge) (st : CtxState) :
    LoadAgrees (s.enter i d st) :=
  (h.setContext (d := { d with state := st, watchTimer := watchLoad s.timing d st }) hc hs hq).congr rfl rfl

theorem mapContexts (h : LoadAgrees s) {f : Context → Context} (hs : ∀ c : Context, (f c).sides = c.sides)
    (hq : ∀ c : Context, (f c).charge = c.charge) : LoadAgrees (s.mapContexts f) := by
  refine h.of_alike (fun p j => ?_) (fun _ => rfl) fun _ => rfl
  have hf := s.mapContexts_context f j
  cases hc : s.context j with
  | none => rw [State.chargeAt_of_none hc, State.chargeAt_of_none (by rw [hf, hc]; rfl)]
  | some c => exact State.chargeAt_alike hc (by rw [hf, hc]; rfl) (hs c) (hq c) p

theorem modPoint (h : LoadAgrees s) {f : Point → Point} (hl : (f (s.point p)).load = (s.point p).load)
    (hlim : (f (s.point p)).limit = (s.point p).limit) : LoadAgrees (s.modPoint p f) := by
  refine h.of_alike (fun _ _ => rfl) (fun q => ?_) fun q => ?_ <;> rw [State.modPoint_point] <;> split
  next e => subst e; exact hl
  · rfl
  next e => subst e; exact hlim
  · rfl

theorem offerTo (h : LoadAgrees s) (d : Option Degree) (n : Word32) (b : FrameBody) : LoadAgrees (s.offerTo d n b) :=
  h.congr (by simp) (by simp)

theorem offerAborts (h : LoadAgrees s) (c : Context) (o : Cause) (n : Word16) : LoadAgrees (s.offerAborts c o n) :=
  h.congr (by simp) (by simp)

theorem offerSetting (h : LoadAgrees s) (p : PointIx) (r : Run) (b : SettingBody) : LoadAgrees (s.offerSetting p r b) :=
  h.congr rfl rfl

theorem writeRun (h : LoadAgrees s) (ms : List MapIx) (r : Run) (x : Slot) : LoadAgrees (s.writeRun ms r x) :=
  h.congr (by simp) (by simp)

/-! ### Turns -/

theorem turnBegun (h : LoadAgrees s) (hc : s.context i = some c) (m : Mode) : LoadAgrees (s.turnBegun p i c m) :=
  have hset : LoadAgrees (s.setContext i (some { c.turned m with state := .retiring m .actuating })) :=
    h.setContext hc (c.turned_sides m) (c.turned_charge m)
  hset.offerSetting _ _ _

theorem retireHolder (h : LoadAgrees s) (hc : s.context i = some c) (e : Ending) (m : Mode) :
    LoadAgrees (s.retireHolder p i c e m) := by
  rw [State.retireHolder_eq]
  have hstopped : LoadAgrees (s.modPoint p fun q => { q with settle := 0, sweepTimer := none }) := h.modPoint rfl rfl
  refine (hstopped.enter (c := c) hc ?_ ?_ _).offerSetting _ _ _
  · exact c.turned_sides m
  · exact c.turned_charge m

theorem rampFault (h : LoadAgrees s) (hc : s.context i = some c) (f : Cause) : LoadAgrees (s.rampFault p i c f) :=
  (h.offerAborts c f s.nodeId).retireHolder (by simpa [State.context] using hc) _ _

theorem settled (h : LoadAgrees s) (hc : s.context i = some c) (x : CtxState) : LoadAgrees (s.settled p i c x) := by
  have hrefresh : LoadAgrees (s.refreshReferences p) :=
    h.mapContexts (fun c => c.refresh_sides p) fun c => c.refresh_charge p
  have hreleased : LoadAgrees ((s.refreshReferences p).releaseLock p) := hrefresh.modPoint rfl rfl
  have hrecord : (s.refreshReferences p).context i = some (c.refresh p) := by
    rw [State.refreshReferences, State.mapContexts_context, hc, Option.map_some]
  exact hreleased.enter (d := { c with reference := c.lastMeasured.map Measured.toReference }) hrecord
    (c.refresh_sides p).symm (c.refresh_charge p).symm x

theorem settleTurn (h : LoadAgrees s) (hc : s.context i = some c) : LoadAgrees (s.settleTurn p i c) := by
  rw [State.settleTurn_eq]
  split
  · exact ((h.settled hc _).writeRun _ _ _).offerTo _ _ _
  · exact (h.settled hc _).offerTo _ _ _

theorem forwardStep (h : LoadAgrees s) (hc : s.context i = some c) (n a : Nat) : LoadAgrees (s.forwardStep p i c n a) :=
  (h.setContext hc (by rfl) (by rfl)).offerSetting _ _ _

theorem grantLoop (l : List CtxIx) (h : LoadAgrees s) : LoadAgrees (State.grantLoop p l s) := by
  induction l generalizing s with
  | nil => exact h
  | cons i rest ih =>
    unfold State.grantLoop
    split
    · exact h
    next c hc =>
      have hgranted : LoadAgrees (s.modPoint p fun q => { q with queue := rest, holder := some i }) := h.modPoint rfl rfl
      have hc' : (s.modPoint p fun q => { q with queue := rest, holder := some i }).context i = some c := hc
      dsimp only
      split
      · split
        · exact h
        · exact hgranted.forwardStep hc' _ _
        · exact hgranted.forwardStep hc' _ _
        · exact ih (hgranted.settleTurn hc')
        · exact hgranted.rampFault hc' _
      · rw [State.retireTurn_eq _ hc']
        exact hgranted.turnBegun hc' _
      all_goals exact h

theorem grant (h : LoadAgrees s) (p : PointIx) : LoadAgrees (s.grant p) := by
  unfold State.grant
  split
  · split
    · exact LoadAgrees.offerSetting (h.modPoint rfl rfl) _ _ _
    · exact h
    · exact h.grantLoop _
  · exact h

theorem retireAtTail (h : LoadAgrees s) (hc : s.context i = some c) (e : Ending) (m : Mode) :
    LoadAgrees (s.retireAtTail i c e m) := by
  have hentered : LoadAgrees (s.enter i { c with ending := some e } (.retiring m .queued)) :=
    h.enter (d := { c with ending := some e }) hc rfl rfl _
  have hqueued : LoadAgrees ((s.enter i { c with ending := some e } (.retiring m .queued)).modPoint c.point fun q =>
      { q with queue := q.queue ++ [i] }) := hentered.modPoint rfl rfl
  exact hqueued.grant c.point

/-! ### Measurements -/

theorem requeue (h : LoadAgrees s) (hc : s.context i = some c) (st : CtxState) : LoadAgrees (s.requeue p i c st) := by
  have hset : LoadAgrees (s.setContext i (some { c with state := st })) := h.setContext hc rfl rfl
  have hqueued : LoadAgrees ((s.setContext i (some { c with state := st })).modPoint p fun q =>
      { q with holder := none, queue := q.queue ++ [i] }) := hset.modPoint rfl rfl
  exact hqueued.grant p

theorem violation (h : LoadAgrees s) (hc : s.context i = some c) (n : Nat) : LoadAgrees (s.violation p i c n) := by
  unfold State.violation
  split
  · exact h.rampFault hc _
  · split
    · exact (h.setContext hc (by rfl) (by rfl)).offerSetting _ _ _
    · exact h.rampFault hc _
    · exact h.rampFault hc _

theorem measureForward (h : LoadAgrees s) (hc : s.context i = some c) (n : Nat) : LoadAgrees (s.measureForward p i c n) := by
  unfold State.measureForward
  split
  · exact h.violation hc n
  · split
    · exact h
    · split
      · exact (h.settleTurn hc).grant p
      · exact h.rampFault hc _
      · exact h.requeue hc _

theorem measureBackoff (h : LoadAgrees s) (hc : s.context i = some c) (n : Nat) : LoadAgrees (s.measureBackoff p i c n) := by
  unfold State.measureBackoff
  split
  · exact h.violation hc n
  · exact h.requeue hc _

theorem countSweep (h : LoadAgrees s) (p : PointIx) : LoadAgrees (s.countSweep p) := by
  have hstopped : LoadAgrees (s.stopCounting p) := h.modPoint rfl rfl
  have hrearmed (n : Nat) : LoadAgrees (s.armSettle p n) := h.modPoint rfl rfl
  unfold State.countSweep
  split
  · exact h
  · split
    next c k hc _ =>
      split
      · split
        · exact hstopped.measureForward hc _
        · exact hrearmed _
      · split
        · exact hstopped.measureBackoff hc _
        · exact hrearmed _
      · split
        · exact hstopped.requeue hc _
        · exact hrearmed _
      · exact h
    · exact h

theorem acceptSweep (h : LoadAgrees s) (p : PointIx) (q : Byte) (r : List Word16) : LoadAgrees (s.acceptSweep p q r) := by
  have hnumbered : LoadAgrees (s.modPoint p fun x => { x with lastSequence := some q }) := h.modPoint rfl rfl
  exact (hnumbered.mapContexts (fun c => (c.measure_follows p r).sides) fun c => c.measure_charge p r).countSweep p

/-! ### Outcomes and expiries -/

theorem serviceOutcome (h : LoadAgrees s) (p : PointIx) (o : SettingOutcome) : LoadAgrees (s.serviceOutcome p o) := by
  have hdone : LoadAgrees (s.modPoint p fun q => { q with service := .none, lastService := some o }) := h.modPoint rfl rfl
  have hraised : LoadAgrees (s.modPoint p fun q => { q with service := .none, lastService := some o }).raiseActuator :=
    hdone.congr rfl rfl
  cases o with
  | ok => exact hdone.grant p
  | reject => exact hraised.grant p
  | timeout => exact hraised.grant p

theorem rampOutcome (h : LoadAgrees s) (hc : s.context i = some c) (x : RampSub) (n : Nat) (o : SettingOutcome) :
    LoadAgrees (s.rampOutcome p i c x n o) := by
  cases o with
  | ok => exact (h.setContext hc (by rfl) (by rfl)).modPoint rfl rfl
  | reject => exact h.rampFault hc _
  | timeout => exact h.rampFault hc _

theorem hardTurn (h : LoadAgrees s) (hc : s.context i = some c) : LoadAgrees (s.hardTurn p i) := by
  rw [s.hardTurn_eq hc]; exact h.turnBegun hc _

theorem sweepExpiry (h : LoadAgrees s) (p : PointIx) : LoadAgrees (s.sweepExpiry p) := by
  unfold State.sweepExpiry
  split
  · split
    · exact h
    next c hc =>
      split
      · exact h.rampFault hc _
      · exact LoadAgrees.hardTurn (h.modPoint rfl rfl) hc
      · exact h
  · exact h

end LoadAgrees
end Sys2Proof.Machine
end
section
/-! ## Admissions, endings and creations move a charge and its point's load together (R54, R56, R87, R88, R89) -/

namespace Sys2Proof.Machine

variable {s t : State} {i : CtxIx} {c d : Context} {p : PointIx}

/-- The loads are the sums of the charges, and the members of the budget lines that wait are uncharged at their points: an admission
attempt may charge them. -/
structure Admissible (s : State) : Prop where
  load : LoadAgrees s
  waiting : ∀ p, ∀ i ∈ (s.point p).line, ∀ c, s.context i = some c → c.state = .waitBudget → c.point = p ∧ c.charge = none

namespace Admissible

theorem congr (h : Admissible s) (hc : t.contexts = s.contexts) (hp : t.points = s.points) : Admissible t where
  load := h.load.congr hc hp
  waiting := by unfold State.point State.context; rw [hc, hp]; exact h.waiting

/-- One record changes, the loads follow, and it joins at most the line that it waits in. -/
theorem rewrite (h : Admissible s) (hj : ∀ j, j ≠ i → t.context j = s.context j)
    (hload : ∀ p, (t.point p).load + s.chargeAt p i = (s.point p).load + t.chargeAt p i)
    (hlimit : ∀ p, (t.point p).load ≤ forward (t.point p).limit)
    (hline : ∀ p, ∀ j ∈ (t.point p).line, j ≠ i → j ∈ (s.point p).line)
    (hi : ∀ p, i ∈ (t.point p).line → ∀ d, t.context i = some d → d.state = .waitBudget → d.point = p ∧ d.charge = none) :
    Admissible t where
  load := h.load.rewrite hj hload hlimit
  waiting p j hm e he hw := by
    by_cases hji : j = i
    · subst hji; exact hi p hm e he hw
    · exact h.waiting p j (hline p j hm hji) e ((hj j hji).symm.trans he) hw

/-- The head of the line takes its charge into the load, within the limit (R56). -/
theorem admitOne {rest : List CtxIx} (h : Admissible s) (hl : (s.point p).line = i :: rest) (hc : s.context i = some c)
    (hst : c.state = .waitBudget) (hfits : fits (s.point p) (chargeOf c.target c.window) = true) :
    Admissible (s.admitOne p i rest c) := by
  obtain ⟨hp, hq⟩ := h.waiting p i (by rw [hl]; exact List.mem_cons_self) c hc hst
  have hctx := (s.admitOne_context p i i rest c).trans (if_pos rfl)
  refine h.rewrite (i := i) (fun j hj => ?_) (fun q => ?_) (fun q => ?_) (fun q j hm hj => ?_) fun q _ d hd hw => ?_
  · exact (s.admitOne_context p i j rest c).trans (if_neg (Ne.symm hj))
  · rw [State.chargeAt_of_uncharged hc hq, State.chargeAt_of_context hctx, State.admitOne_point]
    change _ = _ + if c.point = q then _ else _
    rw [hp]
    split
    next e => subst e; rfl
    · rfl
  · rw [State.admitOne_point]
    split
    · exact of_decide_eq_true hfits
    · exact (h.load q).2
  · rw [State.admitOne_point] at hm
    split at hm
    next e => subst e; rw [hl]; exact List.mem_cons_of_mem _ hm
    · exact hm
  · cases hctx.symm.trans hd; cases hw

theorem admitLoop (l : List CtxIx) (h : Admissible s) (hl : (s.point p).line = l) : Admissible (State.admitLoop p l s) := by
  induction l generalizing s with
  | nil => exact h
  | cons i rest ih =>
    unfold State.admitLoop
    split
    · exact h
    next c hc =>
      split
      next hw =>
        obtain ⟨hst, hfits⟩ := hw
        exact ih (h.admitOne hl hc hst hfits) (by rw [State.admitOne_point, if_pos rfl])
      · exact h

theorem attempt (h : Admissible s) (p : PointIx) : LoadAgrees (s.attempt p) := (h.admitLoop _ rfl).load.grant p

/-- A record has ended uncharged, and its charge has left the load of its point (R87, R88, R89). -/
theorem ended (h : Admissible s) (hc : s.context i = some c) (hp : c.point = p)
    (hj : ∀ j, j ≠ i → t.context j = s.context j) (hd : t.context i = some d) (hst : d.state = .ended) (hq : d.charge = none)
    (hpoint : (t.point p).load = (s.point p).load - c.charge.getD 0 ∧ (t.point p).limit = (s.point p).limit ∧
      ∀ j ∈ (t.point p).line, j ∈ (s.point p).line)
    (hrest : ∀ q, q ≠ p → t.point q = s.point q) : Admissible t := by
  obtain ⟨hload, hlimit, hline⟩ := hpoint
  have hcharge (q : PointIx) : s.chargeAt q i = if p = q then c.charge.getD 0 else 0 := by
    rw [State.chargeAt_of_context hc, hp]
  have hzero (q : PointIx) : t.chargeAt q i = 0 := State.chargeAt_of_uncharged hd hq q
  refine h.rewrite hj (fun q => ?_) (fun q => ?_) (fun q j hm _ => ?_) fun q _ e he hw => ?_
  · have hle := h.load.chargeAt_le q i
    rw [hcharge] at hle ⊢
    rw [hzero]
    by_cases hpq : q = p
    · subst hpq
      rw [if_pos rfl] at hle ⊢
      omega
    · rw [hrest q hpq, if_neg (Ne.symm hpq)]
  · by_cases hpq : q = p
    · subst hpq
      rw [hload, hlimit]
      exact (Nat.sub_le _ _).trans (h.load q).2
    · rw [hrest q hpq]; exact (h.load q).2
  · by_cases hpq : q = p
    · subst hpq; exact hline j hm
    · rw [hrest q hpq] at hm; exact hm
  · cases hd.symm.trans he
    rw [hst] at hw; cases hw

theorem endedNeverLit (h : Admissible s) (hc : s.context i = some c) (e : Ending) : Admissible (s.endedNeverLit i c e) := by
  refine h.ended hc rfl (fun j hj => (endedNeverLit_context s i c e j).trans (if_neg (Ne.symm hj)))
    ((endedNeverLit_context s i c e i).trans (if_pos rfl)) rfl rfl ?_ fun q hq =>
    (endedNeverLit_point s i c e q).trans (if_neg (Ne.symm hq))
  rw [endedNeverLit_point, if_pos rfl]
  exact ⟨rfl, rfl, fun j hm => List.mem_of_mem_erase hm⟩

theorem endNeverLit (h : Admissible s) (hc : s.context i = some c) (e : Ending) : LoadAgrees (s.endNeverLit i c e) := by
  have hend := h.endedNeverLit hc e
  rw [State.endNeverLit_eq]
  split
  · exact hend.attempt _
  · exact hend.load

theorem darkened (h : Admissible s) (hc : s.context i = some c) (hp : c.point = p) (x : Slot) (al : Alerts) (e : Ending) (b : Bool) :
    Admissible (s.darkened p i c x al e b) := by
  refine h.ended hc hp (fun j hj => (darkened_context s p i c e x al b j).trans (if_neg (Ne.symm hj)))
    ((darkened_context s p i c e x al b i).trans (if_pos rfl)) rfl rfl ?_ fun q hq =>
    (darkened_point s p i c e x al b hp q).trans (if_neg (Ne.symm hq))
  rw [darkened_point s p i c e x al b hp, if_pos rfl]
  exact ⟨rfl, rfl, fun j hm => hm⟩

theorem dark (h : Admissible s) (hc : s.context i = some c) (hp : c.point = p) : LoadAgrees (s.dark p i c) := by
  cases he : c.ending with
  | none => unfold State.dark; rw [he]; exact h.load
  | some e => rw [dark_eq he]; exact (h.darkened hc hp _ _ _ _).attempt p

theorem darkUnconfirmed (h : Admissible s) (hc : s.context i = some c) (hp : c.point = p) :
    LoadAgrees (s.darkUnconfirmed p i c) := by
  cases he : c.ending with
  | none => unfold State.darkUnconfirmed; rw [he]; exact h.load
  | some e => rw [darkUnconfirmed_eq he]; exact (h.darkened hc hp _ _ _ _).attempt p

/-- The outcome of a setting is delivered, to a holder that stands at its point (R64, R69, R75, R82, R86, R92). -/
theorem deliver (h : Admissible s) (hplace : ∀ i c, (s.point p).holder = some i → s.context i = some c → c.point = p)
    (o : SettingOutcome) : LoadAgrees (s.deliver p o) := by
  unfold State.deliver
  split
  · exact h.load.serviceOutcome p o
  · split
    · exact h.load
    next i hh =>
      split
      · exact h.load
      next c hc =>
        have hp := hplace i c hh hc
        split
        · split
          · cases o <;> exact h.load.retireHolder hc _ _
          · exact h.load.rampOutcome hc _ _ o
        · cases o with
          | ok =>
            unfold State.gradualOutcome
            dsimp only
            split
            · exact h.dark hc hp
            · exact (h.load.setContext hc (by rfl) (by rfl)).modPoint rfl rfl
          | reject => exact h.load.hardTurn hc
          | timeout => exact h.load.hardTurn hc
        · cases o with
          | ok => exact h.dark hc hp
          | reject => exact h.darkUnconfirmed hc hp
          | timeout => exact h.darkUnconfirmed hc hp
        · exact h.load

end Admissible

/-! ### Creations and releases (R27, R28, R31, R172) -/

theorem RecordsWellFormed.charge_isSome (h : RecordsWellFormed s) (hc : s.context i = some c) : c.charge.isSome = c.state.charged :=
  (Context.wellFormed_iff.1 (h i c hc)).1.charge

theorem RecordsWellFormed.charge_eq_none (h : RecordsWellFormed s) (hc : s.context i = some c) (hst : c.state.charged = false) :
    c.charge = none := by
  have hcharge := h.charge_isSome hc
  rw [hst] at hcharge
  simpa using hcharge

/-- A record that is not live counts for nothing (R20, R30). -/
theorem RecordsWellFormed.chargeAt_eq_zero (h : RecordsWellFormed s) (hold : ∀ c ∈ s.context i, c.live = false) (p : PointIx) :
    s.chargeAt p i = 0 := by
  cases hc : s.context i with
  | none => exact State.chargeAt_of_none hc p
  | some c =>
    have hdead : c.state = .ended := by simpa [Context.live] using hold c hc
    exact State.chargeAt_of_uncharged hc (h.charge_eq_none hc (by rw [hdead]; rfl)) p

/-- A record over no live one, its charge taken into the load of its point within the limit (R27, R28, R172). -/
theorem LoadAgrees.create {st : CtxState} (h : LoadAgrees s) (hr : RecordsWellFormed s) (hold : ∀ c ∈ s.context i, c.live = false)
    (hctx : t.contexts = s.contexts)
    (hpoint : ∀ q, (t.point q).load = (s.point q).load + (if c.point = q then c.charge.getD 0 else 0) ∧
      (t.point q).limit = (s.point q).limit)
    (hfits : (s.point c.point).load + c.charge.getD 0 ≤ forward (s.point c.point).limit) : LoadAgrees (t.create i c st) := by
  have hrecord := (t.create_context i i c st).trans (if_pos rfl)
  refine h.rewrite (i := i) (fun j hj => ?_) (fun q => ?_) fun q => ?_
  · rw [State.create_context, if_neg (Ne.symm hj), State.context, hctx, State.context]
  · rw [hr.chargeAt_eq_zero hold, State.chargeAt_of_context hrecord]
    exact (hpoint q).1
  · obtain ⟨hload, hlimit⟩ := hpoint q
    change (t.point q).load ≤ forward (t.point q).limit
    rw [hload, hlimit]
    split
    next e => subst e; exact hfits
    · exact (h q).2

/-- An uncharged record over no live one changes no load. -/
theorem LoadAgrees.createUncharged {st : CtxState} (h : LoadAgrees s) (hr : RecordsWellFormed s)
    (hold : ∀ c ∈ s.context i, c.live = false) (hctx : t.contexts = s.contexts) (hpts : t.points = s.points)
    (hq : c.charge = none) : LoadAgrees (t.create i c st) := by
  refine h.create hr hold hctx (fun q => ?_) ?_
  · rw [State.point, hpts, hq, State.point]
    exact ⟨by simp, rfl⟩
  · rw [hq]; exact (h c.point).2

theorem LoadAgrees.release (h : LoadAgrees s) (hr : RecordsWellFormed s) (hc : s.context i = some c) (hst : c.state = .ended) :
    LoadAgrees ((s.forget i).setContext i none) := by
  refine h.of_alike (fun q j => ?_) (fun _ => rfl) fun _ => rfl
  by_cases hj : i = j
  · subst hj
    rw [State.chargeAt_of_none ((s.forget i).setContext_context_self i none),
      State.chargeAt_of_uncharged hc (hr.charge_eq_none hc (by rw [hst]; rfl))]
  · exact State.chargeAt_congr (((s.forget i).setContext_context i j none).trans (if_neg hj)) q

end Sys2Proof.Machine
end
section
/-! ## Every command, frame and event keeps the loads the sums of the charges (R53) -/

namespace Sys2Proof.Machine

variable {s t : State} {i : CtxIx} {c : Context} {p : PointIx}

/-- The table, the records and the points agree, and the loads are the sums of the charges. -/
structure Accounted (s : State) : Prop where
  consistent : Consistent s
  load : LoadAgrees s

namespace Accounted

theorem quiet (h : Accounted s) (hq : Quiet s t) (hc : t.contexts = s.contexts) (hp : t.points = s.points) : Accounted t :=
  ⟨consistent_kept.quiet h.consistent hq, h.load.congr hc hp⟩

theorem taken (h : Accounted s) (st : Station) : Accounted (s.taken st) := h.quiet (.taken s st) rfl rfl

theorem removeHead (h : Accounted s) (d : Degree) : Accounted (s.removeHead d) := h.quiet (.removeHead s d) rfl rfl

theorem offerTo (h : Accounted s) (d : Option Degree) (n : Word32) (b : FrameBody) : Accounted (s.offerTo d n b) :=
  h.quiet (.offerTo s d n b) (by simp) (by simp)

/-- A context in a budget line is uncharged (R20, R55). -/
theorem admissible (h : Accounted s) : Admissible s where
  load := h.load
  waiting p i hm c hc hst := by
    obtain ⟨d, hd, hp, -⟩ := State.seat_eq_some.1 (((h.consistent.points.agrees p).line i).1 hm)
    cases hc.symm.trans hd
    exact ⟨hp, h.consistent.records.charge_eq_none hc (by rw [hst]; rfl)⟩

theorem create {st : CtxState} (h : Accounted s) (hi : s.chooseRecord = some i) (hctx : t.contexts = s.contexts)
    (hpts : t.points = s.points) (hq : c.charge = none) : LoadAgrees (t.create i c st) :=
  h.load.createUncharged h.consistent.records (chosen_not_live h.consistent.table hi) hctx hpts hq

theorem reserve (h : Accounted s) (hc : s.context i = some c) (hst : c.state = .probing) : Accounted (s.enter i c .reserved) :=
  ⟨consistent_kept.reserve h.consistent hc hst, h.load.enter (d := c) hc rfl rfl _⟩

/-- A RESERVED context joins its point's line, uncharged (R55). -/
theorem joinLine (h : Accounted s) (hc : s.context i = some c) (hst : c.state = .reserved) : LoadAgrees (s.joinLine i c) := by
  have hq : c.charge = none := h.consistent.records.charge_eq_none hc (by rw [hst]; rfl)
  have hline (q : PointIx) : i ∉ (s.point q).line := h.consistent.points.not_mem_line hc (by rw [hst]; nofun) q
  have hentered : LoadAgrees (s.enter i c .waitBudget) := h.load.enter (d := c) hc rfl rfl _
  have hjoined : Admissible ((s.enter i c .waitBudget).modPoint c.point fun q => { q with line := q.line ++ [i] }) := by
    refine ⟨hentered.modPoint rfl rfl, fun q j hm e he hw => ?_⟩
    rw [State.modPoint_point] at hm
    replace he := (s.enter_context i j c .waitBudget).symm.trans he
    by_cases hj : i = j
    · subst hj
      rw [if_pos rfl] at he
      cases he
      split at hm
      next hp => exact ⟨hp, hq⟩
      · exact absurd hm (hline q)
    · rw [if_neg hj] at he
      refine h.admissible.waiting q j ?_ e he hw
      split at hm
      next hp =>
        subst hp
        exact (List.mem_append.1 hm).resolve_right fun hm => hj (List.mem_singleton.1 hm).symm
      · exact hm
  exact hjoined.attempt c.point

theorem abortEffect (h : Accounted s) (hc : s.context i = some c) (e : Ending) : LoadAgrees (s.abortEffect i c e) := by
  have hend := h.admissible.endNeverLit hc e
  unfold State.abortEffect
  split
  · exact hend
  · exact hend
  · exact hend
  · split
    · exact hend
    · exact h.load.enter (d := { c with ending := some e }) hc rfl rfl _
  · split
    · exact h.load.setContext (d := { c with abortPending := some e }) hc rfl rfl
    · exact h.load.retireHolder hc _ _
  · exact h.load.retireAtTail hc _ _
  · exact h.load.retireAtTail hc _ _
  · exact h.load
  · exact h.load

theorem localAbort (h : Accounted s) (hc : s.context i = some c) (e : Ending) : LoadAgrees (s.localAbort i c e) :=
  ((h.offerTo _ _ _).offerTo _ _ _).abortEffect (by simpa [State.context] using hc) e

/-- The setting of a point leaves the table, and its outcome is delivered (R144, R146). -/
theorem deliverRemoved (h : Accounted s) (w : List Setting) (o : SettingOutcome) :
    LoadAgrees ({ s.removeEntry p with toSend := w }.deliver p o) := by
  have hremoved : Admissible { s.removeEntry p with toSend := w } := h.admissible.congr rfl rfl
  exact hremoved.deliver (fun i c hh hc => (h.consistent.points.held hh hc).1.place) o

/-! ### Commands -/

theorem setPointBody (h : Accounted s) (args : List Byte) : (setPointBody args s).Leaves LoadAgrees := by
  unfold Machine.setPointBody
  dsimp only
  split
  · trivial
  next p _ =>
    split
    · trivial
    · split
      · trivial
      next hload =>
        have hlimit : (s.point p).load ≤ forward (newLimit args (s.point p)) := by
          by_cases hgiven : (byteAt args 1).getLsbD 0 = true
          · exact not_lt.1 fun hlt => hload ⟨hgiven, hlt⟩
          · rw [newLimit, if_neg hgiven]; exact (h.load p).2
        have hset : Admissible (s.modPoint p fun x => { x with
            limit := newLimit args (s.point p), density := newDensity args (s.point p)
            guardTol := newGuard args (s.point p) }) := by
          refine ⟨fun q => ?_, fun q j hm => ?_⟩
          · obtain ⟨hsum, hle⟩ := h.load q
            rw [State.modPoint_point]
            split
            next e => subst e; exact ⟨hsum, hlimit⟩
            · exact ⟨hsum, hle⟩
          · refine h.admissible.waiting q j ?_
            rw [State.modPoint_point] at hm
            split at hm
            next e => subst e; exact hm
            · exact hm
        change LoadAgrees (if _ then _ else _)
        split
        · exact hset.attempt p
        · exact hset.load

theorem forceDarkBody (h : Accounted s) (args : List Byte) : (forceDarkBody args s).Leaves LoadAgrees := by
  unfold Machine.forceDarkBody
  dsimp only
  split
  · trivial
  next p _ =>
    split
    · trivial
    · split
      · trivial
      · split
        · trivial
        · have hpending : LoadAgrees (s.modPoint p fun q => { q with service := .pending (runAt args 1), lastService := none }) :=
            h.load.modPoint rfl rfl
          exact hpending.grant p

theorem rereferenceBody (h : Accounted s) (args : List Byte) : (rereferenceBody args s).Leaves LoadAgrees := by
  unfold Machine.rereferenceBody
  split
  · trivial
  · exact h.load.mapContexts (fun c => c.refresh_sides _) fun c => c.refresh_charge _

/-- An adopted context is charged within the limit as it is created (R171, R172). -/
theorem adoptBody (h : Accounted s) (args : List Byte) : (adoptBody args s).Leaves LoadAgrees := by
  unfold Machine.adoptBody
  dsimp only
  split
  · trivial
  · split
    · trivial
    next sides _ =>
      split
      · trivial
      · split
        · trivial
        · split
          · trivial
          next i hi =>
            split
            · trivial
            · split
              · trivial
              · split
                · trivial
                next hfits =>
                  rw [Bool.not_eq_true, Bool.not_eq_false'] at hfits
                  refine h.load.create h.consistent.records (chosen_not_live h.consistent.table hi)
                    (State.writeRun_contexts _ _ _ _) (fun q => ?_) (of_decide_eq_true hfits)
                  change (State.point _ q).load = _ + (if sides.point = q then _ else 0) ∧ _
                  rw [State.modPoint_point]
                  have hpoint (x : PointIx) : (s.writeRun sides.mapsUsed (runAt args 7) (.lit i)).point x = s.point x := by
                    simp [State.point]
                  split
                  next e => subst e; rw [hpoint]; exact ⟨rfl, rfl⟩
                  · rw [hpoint]; exact ⟨rfl, rfl⟩

theorem beginBody (h : Accounted s) (st : Station) (args : List Byte) : (beginBody st args s).Leaves LoadAgrees := by
  unfold Machine.beginBody
  dsimp only
  split
  · trivial
  · split
    · trivial
    · split
      · trivial
      · split
        · split
          · trivial
          · split
            · trivial
            next i hi =>
              split
              · trivial
              · split
                · trivial
                · exact LoadAgrees.congr (h.create hi (State.writeRun_contexts s _ _ _) (State.writeRun_points s _ _ _) rfl) rfl rfl
        · trivial

theorem startRampBody (h : Accounted s) (st : Station) (args : List Byte) : (startRampBody st args s).Leaves LoadAgrees := by
  unfold Machine.startRampBody
  split
  · trivial
  next i c hf =>
    obtain ⟨hc, -, -⟩ := s.findLive_some hf
    split
    · trivial
    · split
      next hr => exact h.joinLine hc hr.2.1
      · trivial

theorem teardownBody (h : Accounted s) (st : Station) (args : List Byte) : (teardownBody st args s).Leaves LoadAgrees := by
  unfold Machine.teardownBody
  split
  · trivial
  next i c hf =>
    obtain ⟨hc, -, -⟩ := s.findLive_some hf
    split
    · trivial
    · split
      · trivial
      · exact h.load.retireAtTail hc _ _

theorem abortBody (h : Accounted s) (st : Station) (args : List Byte) : (abortBody st args s).Leaves LoadAgrees := by
  unfold Machine.abortBody
  split
  · trivial
  next i c hf =>
    obtain ⟨hc, -, -⟩ := s.findLive_some hf
    split
    · trivial
    · split
      · exact h.load
      · exact h.localAbort hc _

theorem releaseBody (h : Accounted s) (st : Station) (args : List Byte) : (releaseBody st args s).Leaves LoadAgrees := by
  unfold Machine.releaseBody
  split
  · trivial
  · split
    · trivial
    next c hc =>
      split
      · trivial
      next hst =>
        split
        · trivial
        · exact h.load.release h.consistent.records hc (not_not.1 hst)

/-! ### Commands that touch neither a record nor a load -/

theorem nextChangedBody (h : Accounted s) (st : Station) (args : List Byte) : (nextChangedBody st args s).Leaves LoadAgrees := by
  unfold Machine.nextChangedBody
  split
  · exact h.load.congr rfl rfl
  · exact h.load

theorem readLinkBody (h : Accounted s) (st : Station) (args : List Byte) : (readLinkBody st args s).Leaves LoadAgrees := by
  unfold Machine.readLinkBody
  split
  · split
    · exact h.load
    · split
      · exact h.load.congr rfl rfl
      · trivial
  · trivial

theorem setAttentionMaskBody (h : Accounted s) (st : Station) (args : List Byte) :
    (setAttentionMaskBody st args s).Leaves LoadAgrees := by
  unfold Machine.setAttentionMaskBody
  split
  · exact h.load.congr rfl rfl
  · trivial

theorem configureNodeBody (h : Accounted s) (args : List Byte) : (configureNodeBody args s).Leaves LoadAgrees := by
  unfold Machine.configureNodeBody
  split
  · trivial
  · split
    · trivial
    · exact h.load.congr rfl rfl

theorem openNodeBody (h : Accounted s) (args : List Byte) : (openNodeBody args s).Leaves LoadAgrees := by
  unfold Machine.openNodeBody
  split
  · trivial
  · exact h.load.congr rfl rfl

theorem setLockoutBody (h : Accounted s) (args : List Byte) : (setLockoutBody args s).Leaves LoadAgrees := by
  unfold Machine.setLockoutBody
  dsimp only
  split
  · trivial
  · exact h.load.congr rfl rfl

theorem linkEnableBody (h : Accounted s) (args : List Byte) : (linkEnableBody args s).Leaves LoadAgrees := by
  unfold Machine.linkEnableBody
  split
  · trivial
  · split
    · trivial
    · split
      · trivial
      · exact h.load.congr rfl rfl

theorem linkDisableBody (h : Accounted s) (args : List Byte) : (linkDisableBody args s).Leaves LoadAgrees := by
  unfold Machine.linkDisableBody
  split
  · trivial
  · split
    · trivial
    · exact h.load.congr rfl rfl

theorem rangeBody (h : Accounted s) (f : Slot → Slot) (args : List Byte) : (rangeBody f args s).Leaves LoadAgrees := by
  unfold Machine.rangeBody
  dsimp only
  split
  · trivial
  · split
    · trivial
    · split
      · trivial
      · exact h.load.congr rfl rfl

/-- A command keeps the loads where its body does (R152, R161). -/
theorem command {ofRow : Command → Bool} {layout : List Byte → Bool} {body : Station → List Byte → State → Verdict}
    (h : Accounted s) (hb : ∀ {u : State}, Accounted u → ∀ st args, (body st args u).Leaves LoadAgrees)
    (hx : runCommand ofRow layout body s = .next t) : LoadAgrees t :=
  runCommand_keeps h.load (fun st => (h.taken st).load) (fun _ _ _ hu => hu.congr rfl rfl) (fun st args => hb (h.taken st) st args) hx

/-- The same for a command of station 0 alone (R162). -/
theorem commandOfZero {ofRow : Command → Bool} {layout : List Byte → Bool} {body : List Byte → State → Verdict}
    (h : Accounted s) (hb : ∀ {u : State}, Accounted u → ∀ args, (body args u).Leaves LoadAgrees)
    (hx : runCommand ofRow layout (stationZero body) s = .next t) : LoadAgrees t :=
  h.command (fun hu _ args => stationZero_leaves (hb hu args)) hx

/-! ### Frames -/

/-- A taking keeps the loads where its act does (R131). -/
theorem takeFrame {d : Degree} {ofRow : Byte → Bool} {act : Frame → State → State} (h : Accounted s)
    (hact : ∀ {u : State} (f : Frame), Accounted u → LoadAgrees (act f u)) : LoadAgrees (s.takeFrame d ofRow act) :=
  State.takeFrame_keeps h.load (h.load.congr rfl rfl) fun f => hact f (h.removeHead d)

/-- A frame for a context keeps the loads where its effect does (R98). -/
theorem forContext {d : Degree} {f : Frame} {row : Context → Bool} {effect : CtxIx → Context → State → State} (h : Accounted s)
    (taken : ∀ i c, s.context i = some c → row c = true → LoadAgrees (effect i c s)) : LoadAgrees (s.forContext d f row effect) :=
  State.forContext_keeps (h.load.congr rfl rfl) fun i c hc _ hr => taken i c hc hr

theorem takeProbe (h : Accounted s) (d : Degree) (id : Word32) (q : Probe) : LoadAgrees (s.takeProbe d id q) := by
  have hoffer (n : Word32) (b : FrameBody) : LoadAgrees (s.offer d n b) := h.load.congr rfl rfl
  have created {i : CtxIx} (hi : s.chooseRecord = some i) (maps : List MapIx) (owner : Station) (sides : Sides) (st : CtxState)
      (e : Degree) (n : Word32) (b : FrameBody) :
      LoadAgrees (((s.writeRun maps q.run (.held i)).create i (probeContext s q id owner sides st) st).offer e n b) :=
    LoadAgrees.congr (h.create hi (State.writeRun_contexts s _ _ _) (State.writeRun_points s _ _ _) rfl) rfl rfl
  unfold State.takeProbe
  dsimp only
  split
  · exact hoffer _ _
  · split
    · exact hoffer _ _
    · split
      · exact hoffer _ _
      next i hi =>
        split
        · split
          · split
            · exact hoffer _ _
            · unfold State.probeTransit
              split
              · exact hoffer _ _
              · exact created hi _ _ _ _ _ _ _
          · exact h.load
        · split
          · unfold State.probeTail
            split
            · exact hoffer _ _
            · exact created hi _ _ _ _ _ _ _
          · exact h.load

theorem takeClear (h : Accounted s) (hc : s.context i = some c) (hst : c.state = .probing) : LoadAgrees (s.takeClear i c) := by
  have hreserved := h.reserve hc hst
  unfold State.takeClear
  dsimp only
  split
  · split
    · exact hreserved.joinLine (c := { c with state := .reserved, watchTimer := watchLoad s.timing c .reserved })
        (s.enter_context i i c .reserved |>.trans (if_pos rfl)) rfl
    · exact hreserved.load
  · exact hreserved.load.congr rfl rfl
  · exact hreserved.load

theorem takeLit (h : Accounted s) (hc : s.context i = some c) : LoadAgrees (s.takeLit i c) := by
  have hserved : LoadAgrees (s.enter i c .inService) := h.load.enter (d := c) hc rfl rfl _
  exact (hserved.writeRun _ _ _).offerTo _ _ _

theorem takeAbort (h : Accounted s) (hc : s.context i = some c) (d : Degree) (o : Cause) (n : Word16) :
    LoadAgrees (s.takeAbort d i c o n) := by
  unfold State.takeAbort
  split
  · exact h.load
  · exact (h.offerTo _ _ _).abortEffect (by simpa [State.context] using hc) _

theorem execProbe (h : Accounted s) (d : Degree) (hx : execProbe d s = .next t) : LoadAgrees t := by
  refine next_keeps (h.takeFrame fun f hu => ?_) hx
  split
  · exact hu.takeProbe _ _ _
  · exact hu.load

theorem execClear (h : Accounted s) (d : Degree) (hx : execClear d s = .next t) : LoadAgrees t := by
  refine next_keeps (h.takeFrame fun f hu => ?_) hx
  split
  · refine hu.forContext fun i c hc hr => ?_
    simp only [Context.meetsClear, Bool.and_eq_true, beq_iff_eq] at hr
    obtain ⟨⟨-, hst⟩, -⟩ := hr
    exact hu.takeClear hc hst
  · exact hu.load

theorem execRefuse (h : Accounted s) (d : Degree) (hx : execRefuse d s = .next t) : LoadAgrees t := by
  refine next_keeps (h.takeFrame fun f hu => ?_) hx
  split
  · exact hu.forContext fun i c hc _ => (hu.admissible.endNeverLit hc _).offerTo _ _ _
  · exact hu.load

theorem execLight (h : Accounted s) (d : Degree) (hx : execLight d s = .next t) : LoadAgrees t := by
  refine next_keeps (h.takeFrame fun f hu => ?_) hx
  refine hu.forContext fun i c hc hr => ?_
  simp only [Bool.and_eq_true, beq_iff_eq] at hr
  exact hu.joinLine hc hr.2

theorem execLit (h : Accounted s) (d : Degree) (hx : execLit d s = .next t) : LoadAgrees t :=
  next_keeps (h.takeFrame fun _ hu => hu.forContext fun _ _ hc _ => hu.takeLit hc) hx

theorem execAbort (h : Accounted s) (d : Degree) (hx : execAbort d s = .next t) : LoadAgrees t := by
  refine next_keeps (h.takeFrame fun f hu => ?_) hx
  split
  · exact hu.forContext fun i c hc _ => hu.takeAbort hc _ _ _
  · exact hu.load

theorem execTeardown (h : Accounted s) (d : Degree) (hx : execTeardown d s = .next t) : LoadAgrees t :=
  next_keeps (h.takeFrame fun _ hu => hu.forContext fun _ _ hc _ => (hu.load.retireAtTail hc _ _).offerTo _ _ _) hx

theorem execReceiveError (h : Accounted s) (d : Degree) (hx : execReceiveError d s = .next t) : LoadAgrees t := by
  refine next_keeps ?_ hx
  split
  · split
    · exact h.load.congr rfl rfl
    · exact h.load
  · exact h.load

/-! ### Ports and timers -/

theorem execSweepRecord (h : Accounted s) (bytes : List Byte) (hx : execSweepRecord bytes s = .next t) : LoadAgrees t := by
  have hdiscard : LoadAgrees s.discardSweep := h.load.congr rfl rfl
  refine next_keeps ?_ hx
  split
  · unfold State.takeSweep
    split
    · exact hdiscard
    · split
      · exact hdiscard
      · exact h.load.acceptSweep _ _ _
  · exact hdiscard

theorem execAcknowledgement (h : Accounted s) (bytes : List Byte) (hx : execAcknowledgement bytes s = .next t) : LoadAgrees t := by
  have hunmatched : LoadAgrees s.unmatched := h.load.congr rfl rfl
  refine next_keeps ?_ hx
  split
  · split
    · exact h.deliverRemoved s.toSend _
    · exact hunmatched
  · exact hunmatched

theorem execActuatorTimerExpiry (h : Accounted s) (p : PointIx) (hx : execActuatorTimerExpiry p s = .next t) : LoadAgrees t := by
  refine next_keeps ?_ hx
  split
  · split
    · exact h.deliverRemoved _ _
    · exact h.load
  · exact h.load

theorem execWatchTimerExpiry (h : Accounted s) (i : CtxIx) (hx : execWatchTimerExpiry i s = .next t) : LoadAgrees t := by
  refine next_keeps ?_ hx
  split
  next hc =>
    split
    · exact h.localAbort hc _
    · exact h.load
  · exact h.load

theorem carrierLoss (h : Accounted s) (d : Degree) : LoadAgrees (s.carrierLoss d) := by
  unfold State.carrierLoss
  split <;> exact h.load.congr rfl rfl

theorem receive (h : Accounted s) (d : Degree) (f : RxFrame) : LoadAgrees (s.receive d f) := by
  unfold State.receive
  split
  · split <;> exact h.load.congr rfl rfl
  · exact h.load

theorem depart (h : Accounted s) (d : Degree) : LoadAgrees (s.depart d) := by
  unfold State.depart
  split
  · split
    · exact h.load.congr rfl rfl
    · exact h.load
  · exact h.load

/-! ### Every row of the table, and the step -/

theorem exec (h : Accounted s) (i : Instr) (hx : exec i s = .next t) : LoadAgrees t := by
  cases i with
  | readNode => exact h.command (body := readNodeBody) (fun hu _ _ => hu.load.congr rfl rfl) hx
  | readContext => exact h.command (fun hu => readContextBody_leaves hu.load) hx
  | nextChanged => exact h.command nextChangedBody hx
  | readMap => exact h.command (fun hu => readMapBody_leaves hu.load) hx
  | readPoint => exact h.command (fun hu => readPointBody_leaves hu.load) hx
  | readLink => exact h.command readLinkBody hx
  | setAttentionMask => exact h.command setAttentionMaskBody hx
  | clearStation => exact h.command (body := clearStationBody) (fun hu _ _ => hu.load.congr rfl rfl) hx
  | configureNode => exact h.commandOfZero configureNodeBody hx
  | openNode => exact h.commandOfZero openNodeBody hx
  | closeNode => exact h.commandOfZero (body := closeNodeBody) (fun hu _ => hu.load.congr rfl rfl) hx
  | setTiming => exact h.commandOfZero (body := setTimingBody) (fun hu _ => hu.load.congr rfl rfl) hx
  | setPoint => exact h.commandOfZero setPointBody hx
  | setLockout => exact h.commandOfZero setLockoutBody hx
  | linkControlEnable => exact h.commandOfZero linkEnableBody hx
  | linkControlDisable => exact h.commandOfZero linkDisableBody hx
  | barSlots => exact h.commandOfZero (fun hu => hu.rangeBody Slot.bar) hx
  | unbarSlots => exact h.commandOfZero (fun hu => hu.rangeBody Slot.unbar) hx
  | forceDark => exact h.commandOfZero forceDarkBody hx
  | rereferencePoint => exact h.commandOfZero rereferenceBody hx
  | adoptLightpath => exact h.commandOfZero adoptBody hx
  | beginLightpath => exact h.command beginBody hx
  | startRamp => exact h.command startRampBody hx
  | teardownLightpath => exact h.command teardownBody hx
  | abortLightpath => exact h.command abortBody hx
  | releaseContext => exact h.command releaseBody hx
  | unknownCommand => exact h.command (fun _ _ _ => Verdict.leaves_refused _ _) hx
  | write start data endMark =>
    refine next_keeps ?_ hx
    rw [State.writeBytes_eq, State.openTransaction_eq]; exact h.load.congr rfl rfl
  | read start taken =>
    refine next_keeps ?_ hx
    rw [State.readBytes_eq, State.openTransaction_eq]; exact h.load.congr rfl rfl
  | poll start => refine next_keeps ?_ hx; rw [State.startTransaction_eq]; exact h.load.congr rfl rfl
  | busClear => exact next_keeps (u := s.busClear) (h.load.congr rfl rfl) hx
  | reset strap carriers => exact next_keeps (afterReset_resetWith strap carriers s.outputs s.pending).loadAgrees hx
  | carrierArrival link => refine next_keeps ?_ hx; exact h.load.congr rfl rfl
  | carrierLoss link => exact next_keeps (h.carrierLoss link) hx
  | frameCompletion link bytes => exact next_keeps (h.receive link _) hx
  | frameDeparture link => exact next_keeps (h.depart link) hx
  | receiveError link => exact h.execReceiveError link hx
  | probe link => exact h.execProbe link hx
  | clear link => exact h.execClear link hx
  | refuse link => exact h.execRefuse link hx
  | light link => exact h.execLight link hx
  | lit link => exact h.execLit link hx
  | abort link => exact h.execAbort link hx
  | teardown link => exact h.execTeardown link hx
  | sweepRecord bytes => exact h.execSweepRecord bytes hx
  | acknowledgement bytes => exact h.execAcknowledgement bytes hx
  | actuatorTimerExpiry point => exact h.execActuatorTimerExpiry point hx
  | settingTransmission => refine next_keeps ?_ hx; exact h.load.congr rfl rfl
  | watchTimerExpiry context => exact h.execWatchTimerExpiry context hx
  | sweepTimerExpiry point => exact next_keeps (h.load.sweepExpiry point) hx
  | unknownFrameKind link => 
    refine next_keeps (h.takeFrame fun {u} _ hu => ?_) hx
    exact (hu.load.congr rfl rfl : LoadAgrees (u.countMalformed link))
  | otherTargetAddressByte address =>
    refine next_keeps ?_ hx
    rw [State.endTransaction_eq]; exact h.load.congr rfl rfl

end Accounted

/-- A millisecond counts timers down, and no charge and no load (R34). -/
theorem LoadAgrees.tick (h : LoadAgrees s) : LoadAgrees (tick s) := by
  have hlater : LoadAgrees s.later := by
    refine h.of_alike (fun p j => ?_) (fun p => ?_) fun p => ?_
    · cases hc : s.context j with
      | none => rw [State.chargeAt_of_none hc, State.chargeAt_of_none (by rw [State.later_context, hc]; rfl)]
      | some c =>
        exact State.chargeAt_alike (d := c.countDown) hc (by rw [State.later_context, hc]; rfl) rfl rfl p
    · rw [State.later_point]; rfl
    · rw [State.later_point]; rfl
  exact hlater.congr rfl rfl

end Sys2Proof.Machine

open Sys2Proof Sys2Proof.Machine

/-- Settles O59: an admission and an adoption charge within the limit, an ending discharges, and nothing else moves a charge or a
load. -/
theorem stepKeepsTheLoad : Obligations.StepKeepsTheLoad := by
  intro s t ht hr hp hl hx
  unfold step at hx
  split at hx
  · cases hx; exact hl.tick
  next c rest _ =>
    have h : Accounted { s with pending := rest } := ⟨⟨ht, hr, hp⟩, hl.congr rfl rfl⟩
    exact h.exec c hx
end

section
/-! ## The ends of a turn at its measurement sweep (R49, R51, R65, R67, R68, R69, R83) -/

namespace Sys2Proof.Machine

/-! ### The judgement (R49) -/

theorem not_inWindow {w : Nat} {d : Int} (h : w < d ∨ d < -w) : inWindow w d = false := by
  rw [← Bool.not_eq_true, State.inWindow_iff]
  omega

theorem judge_reachShort {w : Nat} {d : Int} (h : w < d) : judge (.tenths 0) w d = .fault .reachShort := by
  have hpos : 0 < d := by omega
  simp [judge, not_inWindow (.inl h), hpos]

theorem judge_overReach {w : Nat} {d : Int} (h : d < -w) : judge (.tenths 250) w d = .fault .overReach := by
  have hneg : d < 0 := by omega
  simp [judge, not_inWindow (.inr h), hneg]

theorem judge_continue {a : Atten} {w : Nat} {d : Int} (h : w < d ∧ a ≠ .tenths 0 ∨ d < -w ∧ a ≠ .tenths 250) :
    judge a w d = .continue := by
  rcases h with ⟨h, ha⟩ | ⟨h, ha⟩
  · have hneg : ¬d < 0 := by omega
    simp [judge, not_inWindow (.inl h), hneg, ha]
  · have hpos : ¬0 < d := by omega
    simp [judge, not_inWindow (.inr h), hpos, ha]

/-! ### Measurements -/

variable {s : State} {p : PointIx} {i : CtxIx} {c : Context}

/-- Giving up the count changes nothing that the guard is read from (R50, R65). -/
theorem guardKept_stopCounting_iff : GuardKept (s.stopCounting p) p i ↔ GuardKept s p i := by
  have hguard : ((s.stopCounting p).point p).guardTol = (s.point p).guardTol := by
    rw [State.stopCounting, State.modPoint_point_self]
  unfold GuardKept
  rw [hguard]
  rfl

theorem guardViolated_of_kept (h : GuardKept s p i) : s.guardViolated p i = false := by
  rw [← Bool.not_eq_true, State.guardViolated_iff, not_not]; exact h

theorem measureForward_violated (h : ¬GuardKept s p i) (b : Nat) : s.measureForward p i c b = s.violation p i c b :=
  if_pos (State.guardViolated_iff s p i |>.2 h)

theorem measureBackoff_violated (h : ¬GuardKept s p i) (b : Nat) : s.measureBackoff p i c b = s.violation p i c b :=
  if_pos (State.guardViolated_iff s p i |>.2 h)

theorem measureBackoff_kept (h : GuardKept s p i) (b : Nat) :
    s.measureBackoff p i c b = s.requeue p i c (.ramping .queued b) := by
  rw [State.measureBackoff, guardViolated_of_kept h, if_neg Bool.false_ne_true]

/-- With the guard kept, a forward measurement does what its judgement says (R49, R67). -/
theorem measureForward_fault {m : Measured} {f : Cause} (h : GuardKept s p i) (hm : c.lastMeasured = some m)
    (hj : judge c.attenuation c.window (c.target - m.power) = .fault f) (b : Nat) :
    s.measureForward p i c b = s.rampFault p i c f := by
  unfold State.measureForward
  rw [guardViolated_of_kept h, hm]
  simp only [hj, Bool.false_eq_true, if_false]

theorem measureForward_continue {m : Measured} (h : GuardKept s p i) (hm : c.lastMeasured = some m)
    (hj : judge c.attenuation c.window (c.target - m.power) = .continue) (b : Nat) :
    s.measureForward p i c b = s.requeue p i c (.ramping .queued 0) := by
  unfold State.measureForward
  rw [guardViolated_of_kept h, hm]
  simp only [hj, Bool.false_eq_true, if_false]

/-! ### Violations (R51, R68) -/

/-- The third violation ends the turn (R68). -/
theorem violation_third {b : Nat} (h : 2 ≤ b) : s.violation p i c b = s.rampFault p i c .guardFault := if_pos (by omega)

/-- A violation undoes the step that the newest journal record tells (R51, R68). -/
theorem violation_undoes {b a : Nat} {older : List JournalRecord} {z : Atten} (h : b < 2)
    (hj : c.journal = older ++ [⟨.tenths a, z⟩]) : s.violation p i c b = (s.setContext i (some { c with
      journal := older, attenuation := .tenths a, step := c.step.map halveStep
      state := .ramping .backoff (b + 1) })).offerSetting p c.run (.attenSet a) := by
  unfold State.violation
  rw [if_neg (by omega), hj, List.getLast?_concat, List.dropLast_concat]

/-- A violation with no step to undo but the opening one ends the turn (R68). -/
theorem violation_opening (hj : ∀ older a z, c.journal ≠ older ++ [⟨.tenths a, z⟩]) (b : Nat) :
    s.violation p i c b = s.rampFault p i c .guardFault := by
  unfold State.violation
  split
  · rfl
  · split
    next a z hlast => exact absurd (List.dropLast_append_getLast? _ hlast).symm (hj _ a z)
    · rfl
    · rfl

/-! ### The counting of a sweep, by the holder's state (R65, R83) -/

theorem countSweep_backoff {b k : Nat} (hh : (s.point p).holder = some i) (hc : s.context i = some c)
    (hst : c.state = .ramping .backoff b) (hk : (s.point p).settle = k + 1) :
    s.countSweep p = if k = 0 then (s.stopCounting p).measureBackoff p i c b else s.armSettle p k := by
  unfold State.countSweep
  simp only [hh, hc, hk, hst]

theorem countSweep_gradual {k : Nat} (hh : (s.point p).holder = some i) (hc : s.context i = some c)
    (hst : c.state = .retiring .gradual .settling) (hk : (s.point p).settle = k + 1) : s.countSweep p =
      if k = 0 then (s.stopCounting p).requeue p i c (.retiring .gradual .queued) else s.armSettle p k := by
  unfold State.countSweep
  simp only [hh, hc, hk, hst]

/-- At the last sweep of its count a violating turn, forward or backoff, is undone or ends (R67, R69). -/
theorem countSweep_violated {sub : RampSub} {b : Nat} (hh : (s.point p).holder = some i) (hc : s.context i = some c)
    (hst : c.state = .ramping sub b) (hsub : sub = .settling ∨ sub = .backoff) (hk : (s.point p).settle = 0 + 1)
    (hg : ¬GuardKept s p i) : s.countSweep p = (s.stopCounting p).violation p i c b := by
  have hstopped : ¬GuardKept (s.stopCounting p) p i := guardKept_stopCounting_iff.not.2 hg
  rcases hsub with rfl | rfl
  · rw [countSweep_settling hh hc hst hk, if_pos rfl, measureForward_violated hstopped]
  · rw [countSweep_backoff hh hc hst hk, if_pos rfl, measureBackoff_violated hstopped]

end Sys2Proof.Machine

open Sys2Proof Sys2Proof.Machine

/-- Settles O43: the counting reaches the measurement of the holder's state, and the guard, the journal and the judgement decide. -/
theorem measurementSweepDecidesTheTurn : Obligations.MeasurementSweepDecidesTheTurn := by
  intro s v p i c k hh hc hk hv
  have hstop : s.stopCounting p = v := hv.symm
  have hfault (f : Cause) : v.rampFault p i c f = v.faulted p i c f := v.rampFault_eq p i c f
  refine ⟨fun sub b hst hsub hk0 hg => ?_, fun b m hst hk0 hg hm => ?_, fun b hst => ⟨fun hpos => ?_, fun hk0 hg => ?_⟩,
    fun hst hk0 => ?_⟩
  · subst hk0
    rw [countSweep_violated hh hc hst hsub hk hg, hstop, ← hfault]
    exact ⟨violation_third, fun older a z hb hj => violation_undoes hb hj, fun hj => violation_opening hj b⟩
  · subst hk0
    have hg' : GuardKept v p i := hstop ▸ guardKept_stopCounting hg
    rw [countSweep_settling hh hc hst hk, if_pos rfl, hstop, ← hfault, ← hfault]
    exact ⟨fun hd ha => measureForward_fault hg' hm (by rw [ha]; exact judge_reachShort hd) b,
      fun hd ha => measureForward_fault hg' hm (by rw [ha]; exact judge_overReach hd) b,
      fun hd => measureForward_continue hg' hm (judge_continue hd) b⟩
  · rw [countSweep_backoff hh hc hst hk, if_neg (by omega)]; rfl
  · subst hk0
    rw [countSweep_backoff hh hc hst hk, if_pos rfl, hstop, measureBackoff_kept (hstop ▸ guardKept_stopCounting hg)]; rfl
  · rw [countSweep_gradual hh hc hst hk, if_pos hk0, hstop]; rfl
end

section
/-! ## The lock grant (R48, R60, R61, R62, R63, R70, R72, R81, R85, R92) -/

namespace Sys2Proof.Machine

/-! ### The journal (R62) -/

theorem pushJournal_of_lt {j : List JournalRecord} (h : j.length < 16) (r : JournalRecord) : pushJournal j r = j ++ [r] := by
  rw [pushJournal, if_neg (by omega)]

/-- A full journal merges its two oldest records (R62). -/
theorem pushJournal_of_full {a b : JournalRecord} {l : List JournalRecord} (h : 16 ≤ (a :: b :: l).length) (r : JournalRecord) :
    pushJournal (a :: b :: l) r = ⟨a.before, b.after⟩ :: (l ++ [r]) := by
  rw [pushJournal, if_pos h]; rfl

/-! ### The step at grant (R48) -/

theorem numericGrant_settle {w : Nat} {d : Int} (h : d.natAbs ≤ w) (a step : Nat) : numericGrant a w step d = .settle :=
  if_pos ((State.inWindow_iff w d).2 h)

/-- A power below the window asks for less attenuation, of which there is none at 0 (R48). -/
theorem numericGrant_of_above {w : Nat} {d : Int} (h : w < d) (a step : Nat) : numericGrant a w step d =
    if a = 0 then .fault .reachShort else .stepTo (a - min step d.toNat) := by
  rw [numericGrant, not_inWindow (.inl h), if_neg Bool.false_ne_true, if_pos (by omega)]

/-- A power above the window asks for more attenuation, of which there is none beyond 250 (R48). -/
theorem numericGrant_of_below {w : Nat} {d : Int} (h : d < -w) (a step : Nat) : numericGrant a w step d =
    if a = 250 then .fault .overReach else .stepTo (min 250 (a + min step (-d).toNat)) := by
  rw [numericGrant, not_inWindow (.inr h), if_neg Bool.false_ne_true, if_neg (by omega)]

theorem grantOutcome_block {c : Context} (ha : c.attenuation = .block) : grantOutcome c = some .openStep := by
  rw [grantOutcome, ha]

theorem grantOutcome_tenths {c : Context} {a : Nat} {m : Measured} (ha : c.attenuation = .tenths a) (hm : c.lastMeasured = some m) :
    grantOutcome c = some (numericGrant a c.window (c.step.getD 0) (c.target - m.power)) := by
  rw [grantOutcome, ha, hm]; rfl

/-! ### The step that is sent (R63) -/

variable {s : State} {p : PointIx} {i : CtxIx} {c : Context}

theorem forwardStep_block (ha : c.attenuation = .block) (n a : Nat) : s.forwardStep p i c n a = (s.setContext i (some { c with
    journal := pushJournal c.journal ⟨.block, .tenths a⟩, attenuation := .tenths a
    state := .ramping .actuating n })).offerSetting p c.run (.routeSet c.sides.source a) := by
  rw [State.forwardStep, ha]

theorem forwardStep_tenths {b : Nat} (ha : c.attenuation = .tenths b) (n a : Nat) :
    s.forwardStep p i c n a = (s.setContext i (some { c with
      journal := pushJournal c.journal ⟨.tenths b, .tenths a⟩, attenuation := .tenths a
      state := .ramping .actuating n })).offerSetting p c.run (.attenSet a) := by
  rw [State.forwardStep, ha]

/-! ### The grant, by the lock and the service request (R52, R60) -/

theorem grant_of_active {r : Run} (hs : (s.point p).service = .active r) : s.grant p = s := by
  have hfree : (s.point p).lockFree = false := by simp [Point.lockFree, hs]
  rw [State.grant, hfree, if_neg Bool.false_ne_true]

/-- With no service request a free lock goes to the step queue. -/
theorem grant_of_free (hh : (s.point p).holder = none) (hs : (s.point p).service = .none) :
    s.grant p = State.grantLoop p (s.point p).queue s := by
  have hfree : (s.point p).lockFree = true := by simp [Point.lockFree, hh, hs]
  rw [State.grant, if_pos hfree, hs]

/-! ### The grant to the head of the step queue (R61) -/

/-- The head of the step queue has become the holder. -/
def State.granted (s : State) (p : PointIx) (i : CtxIx) (rest : List CtxIx) : State :=
  s.modPoint p fun q => { q with queue := rest, holder := some i }

/-- The lock of a point is free, no service request waits, and a record is at the head of the step queue. -/
structure GrantsTo (s : State) (p : PointIx) (i : CtxIx) (rest : List CtxIx) (c : Context) : Prop where
  holder : (s.point p).holder = none
  service : (s.point p).service = .none
  queue : (s.point p).queue = i :: rest
  record : s.context i = some c

namespace GrantsTo

variable {rest : List CtxIx} {x : RampSub} {b : Nat} (h : GrantsTo s p i rest c)
include h

theorem grant_eq : s.grant p = State.grantLoop p (i :: rest) s := by
  rw [grant_of_free h.holder h.service, h.queue]

/-- A head that retires begins its turn (R81, R85). -/
theorem retiring {m : Mode} {y : RetireSub} (hst : c.state = .retiring m y) :
    s.grant p = (s.granted p i rest).turnBegun p i c m := by
  have hrecord : (s.granted p i rest).context i = some c := h.record
  rw [h.grant_eq, State.grantLoop, ← State.retireTurn_eq _ hrecord]
  simp only [h.record, hst]
  rfl

theorem opens (hst : c.state = .ramping x b) (hg : grantOutcome c = some .openStep) :
    s.grant p = (s.granted p i rest).forwardStep p i c b 250 := by
  rw [h.grant_eq, State.grantLoop]
  simp only [h.record, hst, hg]
  rfl

theorem steps (hst : c.state = .ramping x b) {a : Nat} (hg : grantOutcome c = some (.stepTo a)) :
    s.grant p = (s.granted p i rest).forwardStep p i c b a := by
  rw [h.grant_eq, State.grantLoop]
  simp only [h.record, hst, hg]
  rfl

theorem faults (hst : c.state = .ramping x b) {f : Cause} (hg : grantOutcome c = some (.fault f)) :
    s.grant p = (s.granted p i rest).faulted p i c f := by
  rw [h.grant_eq, State.grantLoop, ← State.rampFault_eq]
  simp only [h.record, hst, hg]
  rfl

/-- A settle at grant releases the lock, and the next member is granted (R70, step 5). -/
theorem settles (hst : c.state = .ramping x b) (hg : grantOutcome c = some .settle) :
    s.grant p = ((s.granted p i rest).settleTurn p i c).grant p := by
  have hpoint : ((s.granted p i rest).settleTurn p i c).point p = { s.point p with queue := rest } := by
    rw [State.settleTurn_point, if_pos rfl, State.granted, State.modPoint_point_self]
    exact congrArg (fun o => { s.point p with queue := rest, holder := o }) h.holder.symm
  rw [h.grant_eq, State.grantLoop, grant_of_free (by rw [hpoint]; exact h.holder) (by rw [hpoint]; exact h.service), hpoint]
  simp only [h.record, hst, hg]
  rfl

end GrantsTo
end Sys2Proof.Machine

open Sys2Proof Sys2Proof.Machine

/-- Settles O51: the lock and the service request decide whether the step queue is served, and the state of its head and the step
at grant decide what is done. -/
theorem lockGrantBeginsTheTurn : Obligations.LockGrantBeginsTheTurn := by
  refine ⟨fun j r => ⟨fun hj => pushJournal_of_lt hj r, ?_⟩, fun s p => ⟨?_, fun hh hs hq => ?_, fun r => grant_of_pending⟩,
    fun s u p i rest c hh hs hq hc hu => ?_⟩
  · rintro a b l rfl hj
    exact pushJournal_of_full hj r
  · rintro (hh | ⟨r, hs⟩)
    · exact grant_of_holder hh
    · exact grant_of_active hs
  · rw [grant_of_free hh hs, hq]; rfl
  have h : GrantsTo s p i rest c := ⟨hh, hs, hq, hc⟩
  have hgranted : s.granted p i rest = u := hu.symm
  rw [← hgranted]
  refine ⟨fun m y => h.retiring, fun x b hst => ⟨fun ha => ?_, fun a m ha hm => ?_⟩⟩
  · rw [h.opens hst (grantOutcome_block ha), forwardStep_block ha]
    cases c.sides <;> rfl
  have houtcome := grantOutcome_tenths ha hm
  refine ⟨fun hd => ⟨_, h.settles hst (houtcome.trans (congrArg some (numericGrant_settle hd _ _))), State.settleTurn_settles _ hm⟩,
    fun hd => ?_, fun hd => ?_⟩
  · rw [numericGrant_of_above hd] at houtcome
    refine ⟨fun h0 => h.faults hst (houtcome.trans (congrArg some (if_pos h0))), fun step hstep h0 a' ha' => ?_⟩
    rw [if_neg h0, hstep, Option.getD_some, ← ha'] at houtcome
    rw [h.steps hst houtcome, forwardStep_tenths ha]
  · rw [numericGrant_of_below hd] at houtcome
    refine ⟨fun h250 => h.faults hst (houtcome.trans (congrArg some (if_pos h250))), fun step hstep h250 a' ha' => ?_⟩
    rw [if_neg h250, hstep, Option.getD_some, neg_sub, ← ha'] at houtcome
    rw [h.steps hst houtcome, forwardStep_tenths ha]
end

section
/-! ## Sweep records (R43, R44, R65, R73, R138, R139, R182) -/

namespace Sys2Proof.Machine

/-! ### The group power of a run (R43, R44) -/

theorem reverse_floor_iff {sum : Nat} : (reverse sum).floor = true ↔ sum < 1000 := by
  unfold reverse
  split
  next h => exact iff_of_true rfl h
  next h => split <;> exact iff_of_false Bool.false_ne_true h

theorem reverse_saturated_iff {sum : Nat} : (reverse sum).saturated = true ↔ maxLinear < sum := by
  unfold reverse
  split
  next h => exact iff_of_false Bool.false_ne_true (by unfold maxLinear; omega)
  · split
    next h => exact iff_of_true rfl h
    next h => exact iff_of_false Bool.false_ne_true h

/-- The readings of a run within the sweep, slot by slot (R44). -/
theorem runReadings_eq {readings : List Word16} {run : Run} (h : run.first + run.width ≤ readings.length) :
    runReadings readings run = ((List.range' run.first run.width).map fun k => readings.getD k 0).map readingOf := by
  have hslots : (readings.drop run.first).take run.width = (List.range' run.first run.width).map fun k => readings.getD k 0 := by
    refine List.ext_getElem (by simp; omega) fun n hn _ => ?_
    rw [List.length_take, List.length_drop] at hn
    have hin : run.first + n < readings.length := by omega
    simp [List.getElem?_eq_getElem hin]
  rw [runReadings, hslots]

/-- The group power of a run within the sweep, from the words of its slots (R44). -/
theorem groupPower_eq {readings : List Word16} {run : Run} (h : run.first + run.width ≤ readings.length) :
    let rs := ((List.range' run.first run.width).map fun k => readings.getD k 0).map readingOf
    groupPower readings run = { reverse (rs.map Reading.linear).sum with
      saturated := (reverse (rs.map Reading.linear).sum).saturated || rs.any Reading.clamped } := by
  rw [groupPower, runReadings_eq h]

/-- A run's linear values count for less than the floor's exactly where every slot counts for nothing (R42, R43). -/
theorem sum_linear_lt_iff (words : List Word16) : ((words.map readingOf).map Reading.linear).sum < 1000 ↔
    ∀ w ∈ words, w = 0x8000#16 ∨ w.toInt < -400 := by
  constructor
  · intro hlt w hw
    by_contra hpower
    have hmem : (readingOf w).linear ∈ (words.map readingOf).map Reading.linear :=
      List.mem_map_of_mem (List.mem_map_of_mem hw)
    have hle := List.le_sum_of_mem hmem
    rw [readingOf_linear, if_neg hpower] at hle
    have hfloor := le_forward (min 250 w.toInt)
    omega
  · intro hall
    have hzero : ((words.map readingOf).map Reading.linear).sum = 0 := by
      rw [List.map_map]
      refine List.sum_eq_zero fun x hx => ?_
      obtain ⟨w, hw, rfl⟩ := List.mem_map.1 hx
      exact (readingOf_linear w).trans (if_pos (hall w hw))
    omega

theorem any_clamped_iff (words : List Word16) :
    (words.map readingOf).any Reading.clamped = true ↔ ∃ w ∈ words, 250 < w.toInt := by
  simp [readingOf_clamped]

/-! ### The bytes of a record (R182) -/

theorem readingWords_flatMap (readings : List Word16) : readingWords (readings.flatMap bytes16) = readings := by
  induction readings with
  | nil => rfl
  | cons w rest ih =>
    have hbytes : (w :: rest).flatMap bytes16 = (w >>> 8).setWidth 8 :: w.setWidth 8 :: rest.flatMap bytes16 := rfl
    rw [hbytes, readingWords, word16_bytes16, ih]

theorem recordPoint_eq_some {port : Byte} {rest : List Byte} {p : PointIx} :
    recordPoint (port :: rest) = some p ↔ port.toNat = p.val := by
  have hport : byteAt (port :: rest) 0 = port := rfl
  unfold recordPoint
  rw [hport]
  split
  · rw [Option.some.injEq, Fin.ext_iff]
  next h => exact iff_of_false nofun fun e => h (e ▸ p.isLt)

variable {s : State} {p : PointIx} {bytes : List Byte}

/-- A record is discarded where its point, if it names one, discards it (R138). -/
theorem exec_sweepRecord_discards (h : ∀ p, recordPoint bytes = some p → s.takeSweep p bytes = s.discardSweep) :
    exec (.sweepRecord bytes) s = .next s.discardSweep := by
  change Host.Outcome.next _ = _
  split
  next p hp => rw [h p hp]
  · rfl

theorem exec_sweepRecord_of_point (h : recordPoint bytes = some p) :
    exec (.sweepRecord bytes) s = .next (s.takeSweep p bytes) := by
  change Host.Outcome.next _ = _
  rw [h]

theorem takeSweep_of_length (h : bytes.length ≠ 770) : s.takeSweep p bytes = s.discardSweep := if_pos h

theorem takeSweep_of_repeated (h : (s.point p).lastSequence = some (byteAt bytes 1)) : s.takeSweep p bytes = s.discardSweep := by
  unfold State.takeSweep
  rw [if_pos h, ite_self]

theorem takeSweep_accepts (hl : bytes.length = 770) (h : (s.point p).lastSequence ≠ some (byteAt bytes 1)) :
    s.takeSweep p bytes = s.acceptSweep p (byteAt bytes 1) (readingWords (bytes.drop 2)) := by
  rw [State.takeSweep, if_neg (not_not.2 hl), if_neg h]

/-! ### What an accepted sweep writes, and when it counts nothing (R65, R73) -/

theorem Context.measure_eq (c : Context) (p : PointIx) (r : List Word16) : c.measure p r =
    if c.point = p ∧ c.charge ≠ none then { c with
      lastMeasured := some (groupPower r c.run)
      reference := if c.adopted = true ∧ c.state = .inService ∧ c.reference = none then
        some ⟨(groupPower r c.run).power, (groupPower r c.run).floor⟩ else c.reference }
    else c := by
  unfold Context.measure
  simp only [Bool.and_eq_true, beq_iff_eq, Option.isSome_iff_ne_none, Option.isNone_iff_eq_none, and_assoc]
  rfl

/-- What an accepted sweep writes before the holder's counting (R73, steps 1 to 3). -/
def State.measured (s : State) (p : PointIx) (sequence : Byte) (readings : List Word16) : State :=
  (s.modPoint p fun q => { q with lastSequence := some sequence }).mapContexts fun c => c.measure p readings

theorem State.measured_context (s : State) (p : PointIx) (sequence : Byte) (readings : List Word16) (j : CtxIx) :
    (s.measured p sequence readings).context j = (s.context j).map fun c => c.measure p readings :=
  State.mapContexts_context _ _ j

theorem State.measured_point (s : State) (p q : PointIx) (sequence : Byte) (readings : List Word16) :
    (s.measured p sequence readings).point q = if q = p then { s.point p with lastSequence := some sequence } else s.point q :=
  (s.modPoint_point p q fun x => { x with lastSequence := some sequence }).trans (if_congr eq_comm rfl rfl)

theorem countSweep_of_no_holder (h : (s.point p).holder = none) : s.countSweep p = s := by
  rw [State.countSweep, h]

theorem countSweep_of_no_settle (h : (s.point p).settle = 0) : s.countSweep p = s := by
  unfold State.countSweep
  split
  · rfl
  · split
    next hk => rw [h] at hk; cases hk
    · rfl

/-- A holder whose setting is outstanding, or whose turn is HARD, counts no sweeps (R65, R82, R85). -/
theorem countSweep_of_uncounted {i : CtxIx} {c : Context} (hh : (s.point p).holder = some i) (hc : s.context i = some c)
    (hst : (∃ b, c.state = .ramping .actuating b) ∨ c.state = .retiring .gradual .actuating ∨ ∃ x, c.state = .retiring .hard x) :
    s.countSweep p = s := by
  cases hk : (s.point p).settle with
  | zero => exact countSweep_of_no_settle hk
  | succ k =>
    unfold State.countSweep
    rcases hst with ⟨b, hst⟩ | hst | ⟨x, hst⟩ <;> simp only [hh, hc, hk, hst]

/-- While a setting is outstanding no settle is counted (R65, R92, R141). -/
theorem countSweep_of_outstanding (h : s.turnAgrees p = true)
    (ho : s.outstanding[p] ≠ none ∨ ∃ r, (s.point p).service = .active r) : s.countSweep p = s := by
  cases hh : (s.point p).holder with
  | none => exact countSweep_of_no_holder hh
  | some i =>
    cases hc : s.context i with
    | none => unfold State.countSweep; simp only [hh, hc]
    | some c =>
      obtain ⟨hactive, hphase⟩ := (turnAgrees_of_holder hh hc).1 h
      rcases ho with ho | ⟨r, hr⟩
      · have hout : s.isOutstanding p = true := Option.isSome_iff_ne_none.2 ho
        rw [hout] at hphase
        exact countSweep_of_no_settle (phaseAgrees_outstanding hphase).1
      · rw [hr] at hactive; cases hactive

end Sys2Proof.Machine

open Sys2Proof Sys2Proof.Machine

/-- Settles O41: the readings of a run are summed and converted back, the tests of a record come before its acceptance, and the
counting goes by the settle count, which stands at 0 while a setting is outstanding. -/
theorem sweepRecordIsDiscardedOrAccepted : Obligations.SweepRecordIsDiscardedOrAccepted := by
  refine ⟨fun readings run taken sum htaken hrun hsum => ?_, readingWords_flatMap, fun s p => ⟨countSweep_of_no_holder,
    countSweep_of_no_settle, fun i c => countSweep_of_uncounted, countSweep_of_outstanding⟩, fun s bytes hl =>
    exec_sweepRecord_discards fun p _ => takeSweep_of_length hl, fun s port sequence readings => ⟨fun h => ?_, fun p hp hl hs => ?_⟩⟩
  · have hlinear : ((taken.map readingOf).map Reading.linear).sum = sum := by
      rw [hsum, List.map_map]
      exact congrArg List.sum (List.map_congr_left fun w _ => readingOf_linear w)
    rw [groupPower_eq hrun, ← htaken, hlinear]
    refine ⟨rfl, ?_, reverse_floor_iff, ?_⟩
    · exact reverse_floor_iff.trans (hlinear ▸ sum_linear_lt_iff taken)
    · rw [Bool.or_eq_true, reverse_saturated_iff, any_clamped_iff, or_comm]; rfl
  · refine exec_sweepRecord_discards fun p hp => ?_
    rw [recordPoint_eq_some] at hp
    rcases h with hport | hl | ⟨q, hq, hs⟩
    · omega
    · exact takeSweep_of_length fun hlength => hl (by simpa using hlength)
    · obtain rfl : q = p := Fin.ext (hq.symm.trans hp)
      exact takeSweep_of_repeated hs
  · have hl' : (port :: sequence :: readings).length = 770 := by rw [List.length_cons, List.length_cons, hl]
    refine ⟨s.measured p sequence (readingWords readings), ?_, (s.measured_point p · sequence _), fun j hj => ?_,
      fun j c hj => ?_, rfl⟩
    · rw [exec_sweepRecord_of_point (recordPoint_eq_some.2 hp), takeSweep_accepts hl' hs]; rfl
    · rw [State.measured_context, hj]; rfl
    · rw [State.measured_context, hj, Option.map_some, Context.measure_eq]
end

section
/-! ## The ends of a setting: acknowledgements and actuator timer expiries (R64, R69, R75, R82, R92, R144 to R146) -/

namespace Sys2Proof.Machine

section
variable {s : State} {p : PointIx} {o : SettingOutcome}

/-! ### The outcome of a service request's BLOCK (R92) -/

theorem deliver_active {r : Run} (h : (s.point p).service = .active r) : s.deliver p o = s.serviceOutcome p o := by
  rw [State.deliver, h]

/-- The request ends with its outcome, and any but OK raises ACTUATOR (R92). -/
theorem serviceOutcome_eq (s : State) (p : PointIx) (o : SettingOutcome) : s.serviceOutcome p o =
    ({ s with alerts := { s.alerts with actuator := s.alerts.actuator || decide (o ≠ SettingOutcome.ok) } }.modPoint p fun q =>
      { q with service := .none, lastService := some o }).grant p := by
  cases o with
  | ok => simp [State.serviceOutcome]
  | reject => simp [State.serviceOutcome, State.raiseActuator, State.modPoint]
  | timeout => simp [State.serviceOutcome, State.raiseActuator, State.modPoint]

/-! ### The outcome of a holder's setting (R64, R69, R75, R82) -/

namespace HolderAt

variable {i : CtxIx} {c : Context} (h : HolderAt s p i c)
include h

theorem deliver_ramping {sub : RampSub} {b : Nat} (hst : c.state = .ramping sub b) (ha : c.abortPending = none) :
    s.deliver p o = s.rampOutcome p i c sub b o := by
  obtain ⟨hholder, hservice, hrecord⟩ := h
  unfold State.deliver
  split
  next r hr => exact absurd hr (hservice r)
  · simp only [hholder, hrecord, hst, ha]

theorem deliver_aborting {sub : RampSub} {b : Nat} {e : Ending} (hst : c.state = .ramping sub b)
    (ha : c.abortPending = some e) : s.deliver p o = s.abortOutcome p i c e o := by
  obtain ⟨hholder, hservice, hrecord⟩ := h
  unfold State.deliver
  split
  next r hr => exact absurd hr (hservice r)
  · simp only [hholder, hrecord, hst, ha]

theorem deliver_gradual {x : RetireSub} (hst : c.state = .retiring .gradual x) :
    s.deliver p o = s.gradualOutcome p i c o := by
  obtain ⟨hholder, hservice, hrecord⟩ := h
  unfold State.deliver
  split
  next r hr => exact absurd hr (hservice r)
  · simp only [hholder, hrecord, hst]

/-- A delivery to a holder acts by the holder's state (R64, R69, R75, R82). -/
theorem outcomeActs : OutcomeActs s p i c o (s.deliver p o) := by
  refine ⟨fun sub b hst ha => ?_, fun sub b e hst ha => ?_, fun x hst => ⟨fun n ho hn => ?_, fun ho => ?_⟩⟩
  · rw [h.deliver_ramping hst ha]
    refine ⟨fun ho => ?_, fun ho => ?_, fun ho => ?_⟩
    · subst ho; rfl
    · subst ho; exact s.rampFault_eq p i c _
    · subst ho; exact s.rampFault_eq p i c _
  · rw [h.deliver_aborting hst ha]
    cases o with
    | ok => exact s.retireHolder_eq p i c e .gradual
    | reject => exact s.retireHolder_eq p i c e .hard
    | timeout => exact s.retireHolder_eq p i c e .hard
  · subst ho
    rw [h.deliver_gradual hst, State.gradualOutcome, hn]; rfl
  · rw [h.deliver_gradual hst, ← s.hardTurn_eq h.record p]
    cases o with
    | ok => exact absurd rfl ho
    | reject => rfl
    | timeout => rfl

end HolderAt

/-! ### Unmatched acknowledgements (R144, R145) -/

theorem resultOf_eq_none {b : Byte} (h : 1 < b.toNat) : resultOf b = none := by
  have h0 : b ≠ 0 := by rintro rfl; simp at h
  have h1 : b ≠ 1 := by rintro rfl; simp at h
  rw [resultOf, if_neg h0, if_neg h1]

theorem tagPoint_eq_none {tag : Byte} (h : ∀ p : PointIx, ∀ e ∈ s.outstanding[p], e.tag ≠ tag) : s.tagPoint tag = none := by
  refine List.find?_eq_none.2 fun p _ => ?_
  rw [Option.any_eq_true]
  rintro ⟨e, he, ht⟩
  exact h p e he (by simpa using ht)

/-- A message of another length, a result of neither code and a tag that no entry holds are unmatched (R145, R182). -/
theorem exec_acknowledgement_unmatched {bytes : List Byte} (h : ∀ tag result, bytes = [tag, result] →
    1 < result.toNat ∨ ∀ p : PointIx, ∀ e ∈ s.outstanding[p], e.tag ≠ tag) :
    exec (.acknowledgement bytes) s = .next s.unmatched := by
  refine congrArg Host.Outcome.next ?_
  split
  next tag result =>
    rcases h tag result rfl with hr | ht
    · rw [resultOf_eq_none hr]
    · rw [tagPoint_eq_none ht]
      split
      next hp => cases hp
      · rfl
  · rfl

/-! ### Deliveries -/

section
variable {u : State} {event : Instr} (h : Delivers s p event o u)
include h

/-- The removal of the entry leaves the lock and the holder's record. -/
theorem Delivers.holderAt {i : CtxIx} {c : Context} (hat : HolderAt s p i c) : HolderAt u p i c := by
  rw [h.eq]
  exact ⟨hat.holder, hat.noService, hat.record⟩

/-- A delivery to an ACTIVE service request (R92). -/
theorem Delivers.exec_service {r : Run} (hr : (s.point p).service = .active r) : exec event s = .next
    (({ u with alerts := { u.alerts with actuator := u.alerts.actuator || decide (o ≠ SettingOutcome.ok) } }.modPoint p fun q =>
      { q with service := .none, lastService := some o }).grant p) := by
  have hu : (u.point p).service = .active r := by rw [h.eq]; exact hr
  rw [exec_of_delivers h, deliver_active hu, serviceOutcome_eq]

/-- A delivery to a holder. -/
theorem Delivers.exec_holder {i : CtxIx} {c : Context} (hat : HolderAt s p i c) :
    ∃ t, exec event s = .next t ∧ OutcomeActs u p i c o t :=
  ⟨_, exec_of_delivers h, (h.holderAt hat).outcomeActs⟩

end

/-- Without an entry whose time has run out, no actuator timer expires (R146). -/
theorem exec_actuatorTimerExpiry_not_due (h : ∀ e, s.outstanding[p] = some e → e.timer ≠ 0) :
    exec (.actuatorTimerExpiry p) s = .next s := by
  refine congrArg Host.Outcome.next ?_
  split
  next e he => exact if_neg (h e he)
  · rfl

end

end Sys2Proof.Machine

open Sys2Proof Sys2Proof.Machine

/-- Settles O44: an acknowledgement that matches no entry is counted, and one that matches delivers its result. -/
theorem acknowledgementEndsTheSetting : Obligations.AcknowledgementEndsTheSetting := by
  refine fun s => ⟨fun bytes h => exec_acknowledgement_unmatched h, fun p event o u hdel ho =>
    ⟨fun r hr => ?_, fun i c hat => hdel.exec_holder hat⟩⟩
  have hreject : decide (o ≠ SettingOutcome.ok) = decide (o = SettingOutcome.reject) := by
    cases o with
    | ok => rfl
    | reject => rfl
    | timeout => exact absurd rfl ho
  rw [← hreject]
  exact hdel.exec_service hr

/-- Settles O46: an expiry that is due delivers TIMEOUT. -/
theorem actuatorTimerExpiryDeliversTimeout : Obligations.ActuatorTimerExpiryDeliversTimeout := by
  refine fun s p => ⟨exec_actuatorTimerExpiry_not_due, fun u hdel => ⟨fun r hr => ?_, fun i c hat => hdel.exec_holder hat⟩⟩
  have hexec := hdel.exec_service hr
  rw [decide_eq_true (by decide : SettingOutcome.timeout ≠ .ok), Bool.or_true] at hexec
  exact hexec
end

section
/-! ## Sweep timer expiries (R66, R72, R84, R85, R143) -/

namespace Sys2Proof.Machine

section
variable {s : State} {p : PointIx}

/-! ### The tag that an offer gives (R143) -/

theorem tagHeld_iff {tag : Byte} : s.tagHeld tag = true ↔ ∃ p : PointIx, ∃ e ∈ s.outstanding[p], e.tag = tag := by
  rw [← Bool.not_eq_false, tagHeld_eq_false_iff]
  push Not
  rfl

theorem tagGiven_firstFreeTag (s : State) : TagGiven s (firstFreeTag s.tagHeld 16 s.nextTag) := by
  refine ⟨tagHeld_eq_false_iff.1 (firstFreeTag_not_held s), ?_⟩
  rcases firstFreeTag_spec s.tagHeld 16 s.nextTag with ⟨n, hn, htag, -, hheld⟩ | ⟨htag, hheld⟩
  · exact ⟨n, hn.le, htag, fun m hm => tagHeld_iff.1 (hheld m hm)⟩
  · exact ⟨16, le_refl 16, htag, fun m hm => tagHeld_iff.1 (hheld m hm)⟩

/-- What the offer of a setting adds to the Actuator Port (R141, R143). -/
theorem offerSetting_placed (s : State) (p : PointIx) (r : Run) (b : SettingBody) : ∃ tag, TagGiven s tag ∧
    (s.offerSetting p r b).outstanding = put s.outstanding p (some ⟨tag, b.kind, s.timing.actuatorWait⟩) ∧
    (s.offerSetting p r b).toSend = s.toSend ++ [⟨tag, p, r, b⟩] ∧ (s.offerSetting p r b).nextTag = tag + 1 :=
  ⟨_, tagGiven_firstFreeTag s, rfl, rfl, rfl⟩

/-! ### The expiry, by the holder's state (R66, R84) -/

theorem sweepExpiry_not_due (h : (s.point p).sweepTimer ≠ some 0) : s.sweepExpiry p = s := by
  unfold State.sweepExpiry
  split
  next h0 _ => exact absurd h0 h
  · rfl

variable {i : CtxIx} {c : Context} (h0 : (s.point p).sweepTimer = some 0) (hh : (s.point p).holder = some i)
  (hc : s.context i = some c)
include h0 hh hc

/-- A settle of a retirement turns HARD (R84). -/
theorem sweepExpiry_retiring {m : Mode} {x : RetireSub} (hst : c.state = .retiring m x) :
    s.sweepExpiry p = (s.stopCounting p).turnBegun p i c .hard := by
  rw [← (s.stopCounting p).hardTurn_eq (show (s.stopCounting p).context i = some c from hc), State.sweepExpiry]
  simp only [h0, hh, hc, hst]

/-- A forward or backoff settle ends in a fault (R66). -/
theorem sweepExpiry_ramping {x : RampSub} {b : Nat} (hst : c.state = .ramping x b) :
    s.sweepExpiry p = s.faulted p i c .monitorTimeout := by
  rw [← s.rampFault_eq, State.sweepExpiry]
  simp only [h0, hh, hc, hst]

end

/-! ### A holder that retires, part by part (R72, R81, R85) -/

section
variable (s : State) (p : PointIx) (i : CtxIx) (c : Context) (e : Ending)

theorem holderRetired_context (m : Mode) (j : CtxIx) : (s.holderRetired p i c e m).context j = if i = j then
    some { c.turned m with
      abortPending := none, ending := some e, state := .retiring m .actuating, watchTimer := none }
    else s.context j :=
  State.enter_context _ i j _ _

theorem holderRetired_point (m : Mode) (q : PointIx) : (s.holderRetired p i c e m).point q =
    if p = q then { s.point p with settle := 0, sweepTimer := none } else s.point q :=
  s.modPoint_point p q fun x => { x with settle := 0, sweepTimer := none }

theorem holderRetired_placed (m : Mode) : ∃ tag, TagGiven s tag ∧ (s.holderRetired p i c e m).outstanding =
      put s.outstanding p (some ⟨tag, (c.turned m).turnSetting.kind, s.timing.actuatorWait⟩) ∧
    (s.holderRetired p i c e m).toSend = s.toSend ++ [⟨tag, p, c.run, (c.turned m).turnSetting⟩] ∧
    (s.holderRetired p i c e m).nextTag = tag + 1 :=
  offerSetting_placed _ p c.run _

/-- A fault that retires HARD offers ABORT to the neighbours before the holder retires (R72, R111). -/
theorem faulted_eq_holderRetired (f : Cause) (hf : faultMode f = .hard) : s.faulted p i c f =
    (s.offerAborts c f s.nodeId).holderRetired p i c (s.localEnding c f) .hard := by
  rw [← s.rampFault_eq, State.rampFault, State.retireHolder_eq, hf]

end

end Sys2Proof.Machine

open Sys2Proof Sys2Proof.Machine

/-- Settles O49: the expiry acts by the holder's state, and a fault of this cause retires it HARD. -/
theorem sweepTimerExpiryTurnsHard : Obligations.SweepTimerExpiryTurnsHard := by
  refine fun s p => ⟨fun h => congrArg Host.Outcome.next (sweepExpiry_not_due h), fun i c h0 hh hc =>
    ⟨fun hst => congrArg Host.Outcome.next (sweepExpiry_retiring h0 hh hc hst),
      fun x b hst => congrArg Host.Outcome.next (sweepExpiry_ramping h0 hh hc hst), fun x b hst => ?_⟩⟩
  have hexec : exec (.sweepTimerExpiry p) s = .next ((s.offerAborts c .monitorTimeout s.nodeId).holderRetired p i c
      (s.localEnding c .monitorTimeout) .hard) := by
    rw [← faulted_eq_holderRetired s p i c .monitorTimeout rfl]
    exact congrArg Host.Outcome.next (sweepExpiry_ramping h0 hh hc hst)
  refine ⟨_, hexec, ?_, fun j hj => ?_, ?_, fun q hq => ?_, ?_, rfl, ?_, ?_⟩
  · exact (holderRetired_context _ p i c (s.localEnding c .monitorTimeout) .hard i).trans (if_pos rfl)
  · rw [holderRetired_context, if_neg (Ne.symm hj), State.offerAborts_eq]; rfl
  · rw [holderRetired_point, if_pos rfl, State.offerAborts_eq]; rfl
  · rw [holderRetired_point, if_neg (Ne.symm hq), State.offerAborts_eq]; rfl
  · rw [State.offerAborts_eq]
    exact holderRetired_placed _ p i c (s.localEnding c .monitorTimeout) .hard
  · exact State.offerAborts_maps s c _ _
  · exact State.offerAborts_endedList s c _ _
end

section
/-! ## START RAMP, TEARDOWN LIGHTPATH and ABORT LIGHTPATH (R101, R112, R113, R170) -/

namespace Sys2Proof.Machine

/-! ### The argument and the issuer (R162, R180) -/

theorem word32At_id (id : Word32) : word32At (bytes32 id) 0 = id := word32_bytes32 id

theorem ownerOrZero_iff {st : Station} {c : Context} : ownerOrZero st c = true ↔ st = c.owner ∨ st = 0 := by
  simp [ownerOrZero]

theorem ownerOrZero_false_iff {st : Station} {c : Context} : ownerOrZero st c = false ↔ st ≠ c.owner ∧ st ≠ 0 := by
  simp [ownerOrZero]

theorem abortPermitted_false_iff {st : Station} {c : Context} : abortPermitted st c = false ↔
    c.state = .inService ∧ c.sides.role ≠ .head ∧ st ≠ 0 ∨ st ≠ c.owner ∧ st ≠ 0 := by
  by_cases h : c.state = .inService ∧ c.sides.role ≠ .head
  · rw [abortPermitted, if_pos (by simpa using h), beq_eq_false_iff_ne]
    tauto
  · have hrow : (c.state == .inService && c.sides.role != .head) = false := by simpa using h
    rw [abortPermitted, hrow, if_neg Bool.false_ne_true, ownerOrZero_false_iff]
    tauto

theorem abortIdle_iff {c : Context} : c.abortIdle = true ↔
    (∃ m x, c.state = .retiring m x) ∨ ∃ x n, c.state = .ramping x n ∧ c.abortPending ≠ none := by
  unfold Context.abortIdle
  cases c.state <;> simp [Option.isSome_iff_ne_none]

/-! ### The bodies, by the live context -/

section
variable {s : State} {st : Station} {id : Word32} {i : CtxIx} {c : Context}

theorem startRampBody_noneLive (h : NoneLive s id) (st : Station) :
    startRampBody st (bytes32 id) s = .refused .wrongState := by
  rw [startRampBody, word32At_id, State.findLive_eq_none_iff.2 h]

theorem startRampBody_live (h : TheLive s id i c) (st : Station) : startRampBody st (bytes32 id) s =
    if !ownerOrZero st c then .refused .notPermitted
    else if c.sides.role = .head ∧ c.state = .reserved ∧ c.rampOnClear = some false then
      .accepted (s.joinLine i c) [indexByte i]
    else .refused .wrongState := by
  rw [startRampBody, word32At_id, State.findLive_eq_some h]

theorem teardownBody_noneLive (h : NoneLive s id) (st : Station) :
    teardownBody st (bytes32 id) s = .refused .wrongState := by
  rw [teardownBody, word32At_id, State.findLive_eq_none_iff.2 h]

theorem teardownBody_live (h : TheLive s id i c) (st : Station) : teardownBody st (bytes32 id) s =
    if c.sides.role ≠ .head ∨ c.state ≠ .inService then .refused .wrongState
    else if !ownerOrZero st c then .refused .notPermitted
    else .accepted (s.retireAtTail i c (s.localEnding c .completed) .gradual) [indexByte i] := by
  rw [teardownBody, word32At_id, State.findLive_eq_some h]

theorem abortBody_noneLive (h : NoneLive s id) (st : Station) : abortBody st (bytes32 id) s = .refused .wrongState := by
  rw [abortBody, word32At_id, State.findLive_eq_none_iff.2 h]

theorem abortBody_live (h : TheLive s id i c) (st : Station) : abortBody st (bytes32 id) s =
    if !abortPermitted st c then .refused .notPermitted
    else if c.abortIdle then .accepted s [indexByte i]
    else .accepted (s.localAbort i c (s.localEnding c .abortedLocal)) [indexByte i] := by
  rw [abortBody, word32At_id, State.findLive_eq_some h]

/-- The taking of an intake leaves the context table. -/
theorem taken_theLive (h : TheLive s id i c) (st : Station) : TheLive (s.taken st) id i c :=
  ⟨h.record, h.live, h.carries, h.only⟩

end

end Sys2Proof.Machine

open Sys2Proof Sys2Proof.Machine

/-- Settles O28: START RAMP tests the issuer before the state, TEARDOWN LIGHTPATH after it. -/
theorem headCommandsRampAndTearDown : Obligations.HeadCommandsRampAndTearDown := by
  refine ⟨fun s st id h => ⟨fun hnone => runCommand_refused h rfl rfl rfl (startRampBody_noneLive (s := s.taken st) hnone st),
    fun i c hlive => ?_⟩, fun s st id h => ⟨fun hnone => runCommand_refused h rfl rfl rfl
    (teardownBody_noneLive (s := s.taken st) hnone st), fun i c hlive => ?_⟩⟩
  · have hbody := startRampBody_live (taken_theLive hlive st) st
    refine ⟨fun h1 h2 => ?_, fun hown => ?_⟩
    · rw [ownerOrZero_false_iff.2 ⟨h1, h2⟩] at hbody
      exact runCommand_refused h rfl rfl rfl hbody
    · rw [ownerOrZero_iff.2 hown, Bool.not_true, if_neg Bool.false_ne_true] at hbody
      refine ⟨fun hrole hst hramp => ?_, fun hno => ?_⟩
      · exact runCommand_accepted h rfl rfl rfl (hbody.trans (if_pos ⟨hrole, hst, hramp⟩))
      · exact runCommand_refused h rfl rfl rfl (hbody.trans (if_neg hno))
  · have hbody := teardownBody_live (taken_theLive hlive st) st
    refine ⟨fun hno => runCommand_refused h rfl rfl rfl (hbody.trans (if_pos hno)), fun hrole hst => ?_⟩
    rw [if_neg (by simp [hrole, hst])] at hbody
    refine ⟨fun h1 h2 => ?_, fun hown => ?_⟩
    · rw [ownerOrZero_false_iff.2 ⟨h1, h2⟩] at hbody
      exact runCommand_refused h rfl rfl rfl hbody
    · rw [ownerOrZero_iff.2 hown] at hbody
      exact runCommand_accepted h rfl rfl rfl hbody

/-- Settles O29: the effect of an abort by the state, then the checks of the command in their order. -/
theorem abortCommandStartsALocalAbort : Obligations.AbortCommandStartsALocalAbort := by
  refine ⟨fun s i c e => ⟨abortEffect_neverLit, fun b hst => ⟨abortEffect_dark hst, abortEffect_queued hst⟩,
    fun x b hst hx _ => ⟨fun ho => ?_, fun ho => ?_⟩, abortEffect_settled⟩, fun s st id h => ⟨fun hnone => ?_,
    fun i c hlive => ?_⟩⟩
  · rw [abortEffect_holder hst hx, if_pos]
    exact Option.isSome_iff_ne_none.2 ho
  · rw [abortEffect_holder hst hx, State.isOutstanding, ho]; rfl
  · exact runCommand_refused h rfl rfl rfl (abortBody_noneLive (s := s.taken st) hnone st)
  have hbody := abortBody_live (taken_theLive hlive st) st
  rw [← abortPermitted_false_iff, ← abortIdle_iff, Bool.not_eq_false]
  refine ⟨fun hno => ?_, fun hpermitted => ?_⟩
  · rw [hno] at hbody
    exact runCommand_refused h rfl rfl rfl hbody
  rw [hpermitted, Bool.not_true, if_neg Bool.false_ne_true] at hbody
  have idle (hidle : c.abortIdle = true) : exec .abortLightpath s = .next ((s.taken st).accepting st 0x23 [indexByte i]) :=
    runCommand_accepted h rfl rfl rfl (hbody.trans (if_pos hidle))
  refine ⟨fun hret => idle (abortIdle_iff.2 (.inl hret)), fun hpend => idle (abortIdle_iff.2 (.inr hpend)), fun hact => ?_⟩
  obtain rfl := hlive.carries
  exact runCommand_accepted h rfl rfl rfl (hbody.trans (if_neg hact))

/-- Settles O36: the CLEAR is taken at its context, and the sides decide what follows RESERVED. -/
theorem clearReservesTheContext : Obligations.ClearReservesTheContext := by
  intro s d n id k i c hheads hlive hst hk
  obtain rfl := hlive.carries
  have hexec (hdown : c.sides.downstream = some d) : exec (.clear d) s = .next ((s.removeHead d).takeClear i c) :=
    congrArg Host.Outcome.next ((State.takeFrame_of_heads hheads rfl).trans (State.forContext_of_live
      (frame := ⟨n, c.lightpathId, .clear (k + 1)⟩) (State.removeHead_theLive hlive d)
      (by simp [Context.meetsClear, hdown, hst, hk])))
  refine ⟨fun up hs => ?_, fun add hs hramp => ?_, fun add hs hramp => ?_⟩
  · rw [hexec (by rw [hs]; rfl), State.takeClear, hs, hk]; rfl
  · rw [hexec (by rw [hs]; rfl), State.takeClear, hs]
    exact congrArg Host.Outcome.next (if_neg hramp)
  · have hpoint : c.point = egressPoint d := by rw [Context.point, hs]; rfl
    rw [hexec (by rw [hs]; rfl), State.takeClear, hs, ← hpoint]
    exact congrArg Host.Outcome.next (if_pos hramp)
end

section
/-! ## READ POINT, READ LINK, SET POINT and REREFERENCE POINT (R54, R74, R77, R134, R166, R169, R180) -/

namespace Sys2Proof.Machine

/-! ### READ POINT (R77, R180) -/

section
variable (s : State) (p : PointIx)

/-- The sub-state is the third byte of a context block (R180). -/
theorem Context.block_subCode (i : CtxIx) (c : Context) :
    ∃ rest, c.block i = indexByte i :: c.state.code :: c.state.subCode :: rest := by
  unfold Context.block
  simp only [List.append_assoc, List.cons_append]
  exact ⟨_, rfl⟩

theorem contextBlock_subCode (i : CtxIx) :
    (s.contextBlock i).getD 2 0 = ((s.context i).map fun c => c.state.subCode).getD 0 := by
  unfold State.contextBlock
  cases s.context i with
  | none => rfl
  | some c =>
    obtain ⟨rest, hblock⟩ := c.block_subCode i
    dsimp only
    rw [hblock]; rfl

theorem holderBytes_eq : s.holderBytes p = match (s.point p).holder with
    | none => ([0xFF, 0, 0, 0] : List Byte)
    | some i => [indexByte i, (s.contextBlock i).getD 2 0, if (s.outstanding[p]).isSome then 1 else 0,
        byte (s.point p).settle] := by
  unfold State.holderBytes
  cases (s.point p).holder with
  | none => rfl
  | some i =>
    dsimp only
    rw [contextBlock_subCode]; rfl

theorem Service.bytes_eq (x : Service) : x.bytes = match x with
    | .none => ([0, 0xFF, 0xFF, 0xFF] : List Byte)
    | .pending r => 1 :: nat16 r.first ++ [byte r.width]
    | .active r => 2 :: nat16 r.first ++ [byte r.width] := by
  cases x <;> rfl

theorem lastService_byte (x : Option SettingOutcome) : optByte SettingOutcome.code x = match x with
    | none => (0xFF : Byte)
    | some .ok => 0
    | some .reject => 1
    | some .timeout => 2 := by
  cases x with
  | none => rfl
  | some o => cases o <;> rfl

/-- The number of a byte in two bytes. -/
theorem nat16_toNat (b : Byte) : nat16 b.toNat = [0, b] := by
  have hlow : (BitVec.ofNat 16 b.toNat).setWidth 8 = b := BitVec.eq_of_toNat_eq (by simp)
  have hhigh : ((BitVec.ofNat 16 b.toNat) >>> 8).setWidth 8 = (0 : Byte) := by
    have := b.isLt
    refine BitVec.eq_of_toNat_eq ?_
    simp [Nat.shiftRight_eq_div_pow]
    omega
  rw [nat16, bytes16, hlow, hhigh]

theorem lastSequence_bytes (x : Option Byte) : opt16 (fun b : Byte => nat16 b.toNat) x = match x with
    | none => ([0xFF, 0xFF] : List Byte)
    | some q => [0, q] := by
  cases x with
  | none => rfl
  | some b => exact nat16_toNat b

end

theorem readPointBody_badPoint {n : Byte} (h : 15 < n.toNat) (st : Station) (s : State) :
    readPointBody st [n] s = .refused .badArgument := by
  rw [readPointBody, byteAt_cons_zero, pointArg_eq_none h]

theorem readPointBody_accepted (p : PointIx) (st : Station) (s : State) :
    readPointBody st [indexByte p] s = .accepted s (s.pointData p) := by
  rw [readPointBody, byteAt_cons_zero, pointArg_indexByte]

/-! ### READ LINK (R134, R180) -/

theorem degreeArg_eq_none {b : Byte} (h : 7 < b.toNat) : degreeArg b = none := dif_neg (by omega)

theorem readLinkBody_badArgument {n o : Byte} (h : 7 < n.toNat ∨ 1 < o.toNat) (st : Station) (s : State) :
    readLinkBody st [n, o] s = .refused .badArgument := by
  rw [readLinkBody, byteAt_cons_zero, show byteAt [n, o] 1 = o from rfl]
  rcases h with hn | ho
  · rw [degreeArg_eq_none hn]
  · have h0 : o ≠ 0 := by rintro rfl; simp at ho
    have h1 : o ≠ 1 := by rintro rfl; simp at ho
    cases degreeArg n with
    | none => rfl
    | some d => exact (if_neg h0).trans (if_neg h1)

theorem readLinkBody_accepted {o : Byte} (h : o = 0 ∨ o = 1) (d : Degree) (st : Station) (s : State) :
    readLinkBody st [indexByte d, o] s =
      .accepted (if o = 1 then s.modLink d Link.clearCounts else s) (s.link d).data := by
  rw [readLinkBody, byteAt_cons_zero, degreeArg_indexByte, show byteAt [indexByte d, o] 1 = o from rfl]
  rcases h with rfl | rfl <;> rfl

theorem Link.data_eq (l : Link) : l.data = [match l.state with
      | .disabled => (0 : Byte)
      | .down => 1
      | .up => 2
      | .draining => 3,
    if l.carrier then 1 else 0, byte l.rx.length, byte l.tx.length, if l.overrun then 1 else 0] ++ nat16 l.rxErrors ++
    nat16 l.overruns ++ nat16 l.malformed ++ nat16 l.stray ++ nat16 l.txDrops := by
  unfold Link.data
  cases l.state <;> rfl

/-! ### SET POINT (R54, R166) -/

section
variable {s : State} {n presence guardByte : Byte} {limit density : Word16}

/-- The arguments of a SET POINT as its layout lays them out (R180). -/
def setPointArguments (n presence : Byte) (limit density : Word16) (guardByte : Byte) : List Byte :=
  n :: presence :: (bytes16 limit ++ bytes16 density ++ [guardByte])

/-- What the body reads out of its arguments (R180). -/
theorem setPointArguments_read : byteAt (setPointArguments n presence limit density guardByte) 0 = n ∧
    byteAt (setPointArguments n presence limit density guardByte) 1 = presence ∧
    word16At (setPointArguments n presence limit density guardByte) 2 = limit ∧
    word16At (setPointArguments n presence limit density guardByte) 4 = density ∧
    byteAt (setPointArguments n presence limit density guardByte) 6 = guardByte :=
  ⟨rfl, rfl, word16_bytes16 limit, word16_bytes16 density, rfl⟩

/-- The point with the given items written, density and guard clamped (R54). -/
def Point.written (q : Point) (presence : Byte) (limit density : Word16) (guardByte : Byte) : Point := { q with
  limit := if presence.getLsbD 0 then limit.toInt else q.limit
  density := if presence.getLsbD 1 then max (-300) (min 100 density.toInt) else q.density
  guardTol := if presence.getLsbD 2 then max 1 (min 30 guardByte.toNat) else q.guardTol }

theorem setPointBody_badPoint (h : 15 < n.toNat) (s : State) :
    setPointBody (setPointArguments n presence limit density guardByte) s = .refused .badArgument := by
  obtain ⟨h0, -⟩ := setPointArguments_read (n := n) (presence := presence) (limit := limit) (density := density)
    (guardByte := guardByte)
  rw [setPointBody, h0, pointArg_eq_none h]

/-- The body at a point that exists: the checks of a given limit, then the write and the admission attempt. -/
theorem setPointBody_eq {p : PointIx} (hn : n.toNat = p.val) (q : Point)
    (hq : q = (s.point p).written presence limit density guardByte) :
    setPointBody (setPointArguments n presence limit density guardByte) s =
      if presence.getLsbD 0 = true ∧ (limit.toInt < -400 ∨ 250 < limit.toInt) then .refused .badArgument
      else if presence.getLsbD 0 = true ∧ forward limit.toInt < (s.point p).load then .refused .limitBelowLoad
      else .accepted (if presence.getLsbD 0 = true ∧ forward (s.point p).limit < forward limit.toInt
          then (s.modPoint p fun _ => q).attempt p else s.modPoint p fun _ => q)
        (int16 q.limit ++ int16 q.density ++ [byte q.guardTol]) := by
  obtain ⟨h0, h1, h2, h4, h6⟩ := setPointArguments_read (n := n) (presence := presence) (limit := limit)
    (density := density) (guardByte := guardByte)
  have hpoint : pointArg n = some p := by
    rw [pointArg, dif_pos (by omega)]; exact congrArg some (Fin.ext hn)
  subst hq
  rw [setPointBody, h0, hpoint]
  dsimp only
  rw [newLimit, newDensity, newGuard, h1, h2, h4, h6]
  by_cases hgiven : presence.getLsbD 0 = true
  · simp only [hgiven, Point.written, if_true]; rfl
  · simp only [hgiven, Point.written]; rfl

end

/-! ### REREFERENCE POINT (R74, R169) -/

/-- The records of the context table, by index. -/
theorem contexts_toList (s : State) : s.contexts.toList = (List.finRange 48).map s.context :=
  List.ext_getElem (by simp) fun k h1 h2 => by simp [State.context]

theorem refreshCount_eq (s : State) (p : PointIx) : s.refreshCount p =
    (List.finRange 48).countP fun i => (s.context i).any fun c =>
      c.point == p && (c.state == .passed || c.state == .inService) && c.charge.isSome && c.lastMeasured.isSome := by
  unfold State.refreshCount
  rw [contexts_toList, List.countP_map]
  refine List.countP_congr fun i _ => ?_
  rw [Function.comp_apply]
  cases s.context i <;> rfl

theorem refreshReferences_context (s : State) (p : PointIx) (i : CtxIx) :
    (s.refreshReferences p).context i = (s.context i).map fun c => c.refresh p := s.mapContexts_context _ i

theorem rereferenceBody_badPoint {n : Byte} (h : 15 < n.toNat) (s : State) :
    rereferenceBody [n] s = .refused .badArgument := by
  rw [rereferenceBody, byteAt_cons_zero, pointArg_eq_none h]

theorem rereferenceBody_accepted (p : PointIx) (s : State) :
    rereferenceBody [indexByte p] s = .accepted (s.refreshReferences p) [byte (s.refreshCount p)] := by
  rw [rereferenceBody, byteAt_cons_zero, pointArg_indexByte]

end Sys2Proof.Machine

open Sys2Proof Sys2Proof.Machine

/-- Settles O16: the replies group by group, and the clear option. -/
theorem readPointAndReadLinkReport : Obligations.ReadPointAndReadLinkReport := by
  refine ⟨fun s st n h hn => runCommand_refused h rfl rfl rfl (readPointBody_badPoint hn st _),
    fun s st n o h hbad => runCommand_refused h rfl rfl rfl (readLinkBody_badArgument hbad st _),
    fun s st p h => ?_, fun s st d o h ho => ?_⟩
  · refine (runCommand_accepted h rfl rfl rfl (readPointBody_accepted p st (s.taken st))).trans ?_
    have hdata : (s.taken st).pointData p = s.pointData p := rfl
    rw [hdata, State.pointData, holderBytes_eq, Service.bytes_eq, lastService_byte, lastSequence_bytes]
    simp only [List.append_assoc, List.cons_append, List.nil_append] <;> rfl
  · refine (runCommand_accepted h rfl rfl rfl (readLinkBody_accepted ho d st (s.taken st))).trans ?_
    rw [Link.data_eq]; rfl

/-- Settles O20: the checks of a given limit in their order, and the point that is written. -/
theorem setPointChecksAndWrites : Obligations.SetPointChecksAndWrites := by
  intro s n presence guardByte limit density h
  refine ⟨fun hn => runCommand_refused h rfl rfl rfl ((stationZero_zero _ _ _).trans (setPointBody_badPoint hn _)),
    fun p hn => ?_⟩
  have hbody := (stationZero_zero setPointBody (setPointArguments n presence limit density guardByte) (s.taken 0)).trans
    (setPointBody_eq (s := s.taken 0) hn _ rfl)
  refine ⟨fun hgiven hrange => ?_, fun hgiven hlow hhigh hload => ?_, fun hok => ⟨_, rfl, ?_⟩⟩
  · exact runCommand_refused h rfl rfl rfl (hbody.trans (if_pos ⟨hgiven, hrange⟩))
  · rw [if_neg (by omega)] at hbody
    exact runCommand_refused h rfl rfl rfl (hbody.trans (if_pos ⟨hgiven, hload⟩))
  · have hrange : ¬(presence.getLsbD 0 = true ∧ (limit.toInt < -400 ∨ 250 < limit.toInt)) := by
      rintro ⟨hgiven, hout⟩
      obtain ⟨hlow, hhigh, -⟩ := hok hgiven
      omega
    have hload : ¬(presence.getLsbD 0 = true ∧ forward limit.toInt < (s.point p).load) := by
      rintro ⟨hgiven, hbelow⟩
      obtain ⟨-, -, hfits⟩ := hok hgiven
      omega
    rw [if_neg hrange] at hbody
    exact runCommand_accepted h rfl rfl rfl (hbody.trans (if_neg hload))

/-- Settles O24: the refreshed records one by one, and how many they are. -/
theorem rereferenceTakesTheLastMeasured : Obligations.RereferenceTakesTheLastMeasured := by
  refine ⟨fun s n h hn => runCommand_refused h rfl rfl rfl ((stationZero_zero _ _ _).trans (rereferenceBody_badPoint hn _)),
    fun s p h => ?_⟩
  refine ⟨_, _, runCommand_accepted h rfl rfl rfl ((stationZero_zero _ _ _).trans (rereferenceBody_accepted p _)),
    fun i c hc => ?_, fun i hc => ?_, refreshCount_eq s p, rfl⟩
  · refine (refreshReferences_context (s.taken 0) p i).trans ?_
    rw [show (s.taken 0).context i = some c from hc, State.refresh_eq]; rfl
  · refine (refreshReferences_context (s.taken 0) p i).trans ?_
    rw [show (s.taken 0).context i = none from hc]; rfl
end

section
/-! ## The TEARDOWN frame (R98, R114) -/

namespace Sys2Proof.Machine

/-- A frame whose context does not meet the row of its kind is stray (R98). -/
theorem State.forContext_of_unmet {s : State} {d : Degree} {frame : Frame} {i : CtxIx} {c : Context}
    (h : TheLive s frame.lightpathId i c) {row : Context → Bool} {effect : CtxIx → Context → State → State}
    (hr : row c = false) : s.forContext d frame row effect = s.countStray d := by
  unfold State.forContext
  rw [State.findLive_eq_some h]
  exact if_neg (Bool.eq_false_iff.1 hr)

end Sys2Proof.Machine

open Sys2Proof Sys2Proof.Machine

/-- Settles O40: the row of TEARDOWN decides between the retirement, with its passing on, and the count of stray frames. -/
theorem teardownFrameRetiresHard : Obligations.TeardownFrameRetiresHard := by
  intro s d n id i c hheads hlive
  obtain rfl := hlive.carries
  have hlive' := State.removeHead_theLive hlive d
  refine ⟨fun hup hst => ?_, fun hno => ?_⟩
  · have hexec : exec (.teardown d) s = .next ((s.removeHead d).takeTeardown d i c) :=
      congrArg Host.Outcome.next ((State.takeFrame_of_heads hheads rfl).trans (State.forContext_of_live
        (frame := ⟨n, c.lightpathId, .teardown⟩) hlive' (by simp [hup, hst])))
    rw [hexec, State.takeTeardown, otherNeighbour_eq (.inl ⟨hup, rfl⟩)]; rfl
  · have hrow : (c.sides.upstream == some d && c.state == .inService) = false := by
      rw [Bool.and_eq_false_iff, beq_eq_false_iff_ne, beq_eq_false_iff_ne]; exact hno
    exact congrArg Host.Outcome.next ((State.takeFrame_of_heads hheads rfl).trans (State.forContext_of_unmet
      (frame := ⟨n, c.lightpathId, .teardown⟩) hlive' hrow))
end

section
/-! ## The fields of each frame kind, out of its bytes and into them (R95, R97, R181) -/

namespace Sys2Proof.Machine

/-! ### Numbers and their bytes (R179) -/

theorem toNat_byte (n : Nat) : (byte n).toNat = n % 256 := BitVec.toNat_ofNat n 8

/-- The byte at any place of a number is the byte of a quotient. -/
theorem setWidth_ushiftRight {w : Nat} (v : BitVec w) (k : Nat) : (v >>> k).setWidth 8 = byte (v.toNat / 2 ^ k) := by
  apply BitVec.eq_of_toNat_eq
  rw [BitVec.toNat_setWidth, BitVec.toNat_ushiftRight, toNat_byte, Nat.shiftRight_eq_div_pow]

theorem setWidth_eq_byte {w : Nat} (v : BitVec w) : v.setWidth 8 = byte v.toNat := by
  apply BitVec.eq_of_toNat_eq
  rw [BitVec.toNat_setWidth, toNat_byte]

theorem bytes16_eq (v : Word16) : bytes16 v = [byte (v.toNat / 256), byte v.toNat] := by
  rw [bytes16, setWidth_ushiftRight, setWidth_eq_byte]; rfl

theorem bytes32_eq (v : Word32) : bytes32 v =
    [byte (v.toNat / 16777216), byte (v.toNat / 65536), byte (v.toNat / 256), byte v.toNat] := by
  rw [bytes32, setWidth_ushiftRight, setWidth_ushiftRight, setWidth_ushiftRight, setWidth_eq_byte]; rfl

/-- A byte does not see what a wider number is cut to. -/
theorem byte_mod_div {n m k : Nat} (h : k * 256 ∣ m) : byte (n % m / k) = byte (n / k) := by
  apply BitVec.eq_of_toNat_eq
  rw [toNat_byte, toNat_byte, ← Nat.mod_mul_right_div_self, ← Nat.mod_mul_right_div_self, Nat.mod_mod_of_dvd _ h]

theorem nat16_eq (n : Nat) : nat16 n = [byte (n / 256), byte n] := by
  have hlow : byte (n % 65536) = byte n := by simpa using byte_mod_div (n := n) (m := 65536) (k := 1) (by decide)
  rw [nat16, bytes16_eq, BitVec.toNat_ofNat, byte_mod_div (by decide), hlow]

theorem nat32_eq (n : Nat) : nat32 n = [byte (n / 16777216), byte (n / 65536), byte (n / 256), byte n] := by
  have hlow : byte (n % 4294967296) = byte n := by simpa using byte_mod_div (n := n) (m := 4294967296) (k := 1) (by decide)
  rw [nat32, bytes32_eq, BitVec.toNat_ofNat, byte_mod_div (by decide), byte_mod_div (by decide), byte_mod_div (by decide), hlow]

theorem int16_eq {d : Int} (hlo : -32768 ≤ d) (hhi : d < 32768) : int16 d = nat16 (if 0 ≤ d then d else 65536 + d).toNat := by
  refine congrArg bytes16 (BitVec.eq_of_toNat_eq ?_)
  rw [BitVec.toNat_ofInt, BitVec.toNat_ofNat]
  split <;> omega

theorem word16_toNat (hi lo : Byte) : (word16 hi lo).toNat = 256 * hi.toNat + lo.toNat := by
  rw [word16, BitVec.toNat_append, ← Nat.shiftLeft_add_eq_or_of_lt lo.isLt, Nat.shiftLeft_eq, Nat.mul_comm]

theorem word16_eq_zero_iff {hi lo : Byte} : word16 hi lo = 0 ↔ hi.toNat = 0 ∧ lo.toNat = 0 := by
  rw [← BitVec.toNat_inj, word16_toNat, show (0 : Word16).toNat = 0 from rfl]; omega

/-! ### The envelope (R181) -/

/-- A frame is read from its envelope and its fields; its check has been tested before (R129). -/
theorem parseFrame_envelope (own sender : Word16) (id : Word32) (kind declared hi lo : Byte) (fields : List Byte) :
    parseFrame own ([kind, declared] ++ bytes16 sender ++ bytes32 id ++ fields ++ [hi, lo]) =
      if 10 + fields.length = declared.toNat ∧ sender ≠ 0 ∧ sender ≠ own then
        (parseBody kind fields).map fun b => ⟨sender, id, b⟩ else none := by
  have hbytes : [kind, declared] ++ bytes16 sender ++ bytes32 id ++ fields ++ [hi, lo] =
    kind :: declared :: (sender >>> 8).setWidth 8 :: sender.setWidth 8 :: (id >>> 24).setWidth 8 :: (id >>> 16).setWidth 8 ::
      (id >>> 8).setWidth 8 :: id.setWidth 8 :: (fields ++ [hi, lo]) := by simp [bytes16, bytes32]
  have hfields : (fields ++ [hi, lo]).take ((fields ++ [hi, lo]).length - 2) = fields := by simp
  rw [hbytes, parseFrame]
  simp only [word16_bytes16, word32_bytes32, hfields]
  refine if_congr ?_ rfl rfl
  simp only [List.length_cons, List.length_append, List.length_nil]
  constructor
  · rintro ⟨hlen, -, hsender⟩; exact ⟨by omega, hsender⟩
  · rintro ⟨hlen, hsender⟩; exact ⟨by omega, by omega, hsender⟩

/-- Bytes too few for an envelope and a check are no frame. -/
theorem parseFrame_short {own : Word16} {l : List Byte} (h : l.length < 10) : parseFrame own l = none := by
  unfold parseFrame
  split
  · exact if_neg fun ⟨_, hrest, _⟩ => by simp only [List.length_cons] at h; omega
  · rfl

/-! ### The fields, byte by byte (R97) -/

section
variable {f : List Byte}

theorem parseProbe_cons (hop f1 f0 width window step len : Byte) (route : List Byte) :
    parseProbe (hop :: f1 :: f0 :: width :: window :: step :: len :: route) =
      if 1 ≤ hop.toNat ∧ hop.toNat < len.toNat ∧ 2 ≤ len.toNat ∧ len.toNat ≤ 32 ∧
          (⟨(word16 f1 f0).toNat, width.toNat⟩ : Run).isSlotRun = true ∧ routeWellFormed len.toNat route = true then
        some (.probe hop.toNat (word16 f1 f0).toNat width.toNat (clampByte 20 window) (clampByte 30 step) len.toNat route)
      else none := rfl

/-- A route's entries by their places: degrees, and a drop port at the end (R97). -/
theorem routeWellFormed_getD {len : Nat} {route : List Byte} (hpos : 0 < len) (h : routeWellFormed len route = true) :
    route.length = len ∧ (∀ j, j + 1 < len → (route.getD j 0).toNat ≤ 7) ∧ (route.getD (len - 1) 0).toNat ≤ 15 := by
  obtain ⟨hlen, hdegrees, hdrop⟩ := routeWellFormed_iff.1 h
  refine ⟨hlen, fun j hj => hdegrees _ ?_, ?_⟩
  · have hlt : j < route.dropLast.length := by rw [List.length_dropLast]; omega
    have hget : route.getD j 0 = route.dropLast[j] := by
      rw [List.getElem_dropLast, List.getD_eq_getElem]
    rw [hget]; exact List.getElem_mem hlt
  · rw [← hlen, List.getD_eq_getElem?_getD, ← List.getLast?_eq_getElem?, ← List.getLastD_eq_getLast?]; exact hdrop

theorem parseProbe_malformed (h : fieldsMalformed 1 f) : parseProbe f = none := by
  unfold parseProbe
  split
  next hop f1 f0 width window step len route =>
    refine if_neg fun ⟨hhop, hlt, hlen, hlen32, hrun, hroute⟩ => ?_
    obtain ⟨hwidth, hwidth16, hfirst, hends⟩ := Run.isSlotRun_iff.1 hrun
    obtain ⟨hlength, hdegrees, hdrop⟩ := routeWellFormed_getD (by omega) hroute
    dsimp only at hwidth hwidth16 hfirst hends
    rw [word16_toNat] at hfirst hends
    have hentry (j : Nat) : (hop :: f1 :: f0 :: width :: window :: step :: len :: route).getD (7 + j) 0 = route.getD j 0 := by
      rw [Nat.add_comm]; rfl
    rcases h with h | h | h | h | h | h | h | h | h | h | ⟨j, hj, h⟩ | h
    iterate 10 · simp only [List.length_cons, List.getD_cons_zero, List.getD_cons_succ] at h; omega
    · refine Nat.not_le.2 h ?_
      change ((hop :: f1 :: f0 :: width :: window :: step :: len :: route).getD (7 + j) 0).toNat ≤ 7
      rw [hentry]; exact hdegrees j hj
    · have hplace : 6 + len.toNat = 7 + (len.toNat - 1) := by omega
      refine Nat.not_le.2 h ?_
      change ((hop :: f1 :: f0 :: width :: window :: step :: len :: route).getD (6 + len.toNat) 0).toNat ≤ 15
      rw [hplace, hentry]; exact hdrop
  · rfl

theorem parseClear_malformed (h : fieldsMalformed 2 f) : parseClear f = none := by
  unfold parseClear
  split
  next hop =>
    refine if_neg fun ⟨hpos, hle⟩ => ?_
    rcases h with h | h | h
    · exact h rfl
    iterate 2 · simp only [List.getD_cons_zero] at h; omega
  · rfl

/-- The causes of a REFUSE and their codes (R95, R179). -/
theorem refuseCause_eq_some {b : Byte} {c : Cause} (h : refuseCause b = some c) :
    1 ≤ b.toNat ∧ b.toNat ≤ 5 ∧ (c = .slotBusy ↔ b.toNat = 5) := by
  have hcode : c.code = b := by simpa using List.find?_some h
  have hcodes : ∀ c ∈ [Cause.nodeClosed, .duplicateId, .noContext, .routeInvalid, .slotBusy],
    1 ≤ c.code.toNat ∧ c.code.toNat ≤ 5 ∧ (c = .slotBusy ↔ c.code.toNat = 5) := by decide
  exact hcode ▸ hcodes c (List.mem_of_find?_eq_some h)

/-- The causes of an ABORT and their codes (R95, R179). -/
theorem abortCause_eq_some {b : Byte} {c : Cause} (h : abortCause b = some c) : 0x12 ≤ b.toNat ∧ b.toNat ≤ 0x19 := by
  have hcode : c.code = b := by simpa using List.find?_some h
  have hcodes : ∀ c ∈ [Cause.abortedLocal, .timeout, .guardFault, .reachShort, .overReach, .actuatorReject, .actuatorTimeout,
    .monitorTimeout], 0x12 ≤ c.code.toNat ∧ c.code.toNat ≤ 0x19 := by decide
  exact hcode ▸ hcodes c (List.mem_of_find?_eq_some h)

theorem parseRefuse_cons {b n1 n0 hop s1 s0 : Byte} {c : Cause} (h : refuseCause b = some c) :
    parseRefuse [b, n1, n0, hop, s1, s0] =
      if word16 n1 n0 ≠ 0 ∧ 1 ≤ hop.toNat ∧ hop.toNat ≤ 31 then
        if c = .slotBusy then
          if (word16 s1 s0).toNat ≤ 383 then some (.refuse c (word16 n1 n0) hop.toNat (some (word16 s1 s0).toNat)) else none
        else if word16 s1 s0 = 0xFFFF#16 then some (.refuse c (word16 n1 n0) hop.toNat none) else none
      else none := by
  rw [parseRefuse, h]

theorem parseRefuse_malformed (h : fieldsMalformed 3 f) : parseRefuse f = none := by
  unfold parseRefuse
  split
  next cause n1 n0 hop s1 s0 =>
    split
    · rfl
    next c hc =>
      obtain ⟨hpos, hle, hbusy⟩ := refuseCause_eq_some hc
      dsimp only
      split
      next hok =>
        obtain ⟨hne, hhop, hhop31⟩ := hok
        have hends : (cause.toNat = 5 ∧ 383 < (word16 s1 s0).toNat) ∨ (cause.toNat ≠ 5 ∧ (word16 s1 s0).toNat ≠ 0xFFFF) := by
          rw [word16_toNat]
          rcases h with h | h | h | h | h | h | h | h
          · exact absurd rfl h
          iterate 2 · simp only [List.getD_cons_zero] at h; omega
          · exact absurd (word16_eq_zero_iff.2 h) hne
          iterate 4 · simp only [List.getD_cons_zero, List.getD_cons_succ] at h; omega
        rcases hends with ⟨h5, hfar⟩ | ⟨h5, hset⟩
        · rw [if_pos (hbusy.2 h5), if_neg (by omega)]
        · rw [if_neg (mt hbusy.1 h5), if_neg fun e => hset (congrArg BitVec.toNat e)]
      · rfl
  · rfl

theorem parseAbort_cons {b n1 n0 : Byte} {c : Cause} (h : abortCause b = some c) :
    parseAbort [b, n1, n0] = if word16 n1 n0 ≠ 0 then some (.abort c (word16 n1 n0)) else none := by
  rw [parseAbort, h]

theorem parseAbort_malformed (h : fieldsMalformed 6 f) : parseAbort f = none := by
  unfold parseAbort
  split
  next cause n1 n0 =>
    split
    next c hc =>
      obtain ⟨hlo, hhi⟩ := abortCause_eq_some hc
      refine if_neg fun hne => ?_
      rcases h with h | h | h | h
      · exact h rfl
      iterate 2 · simp only [List.getD_cons_zero] at h; omega
      · exact hne (word16_eq_zero_iff.2 h)
    · rfl
  · rfl

/-- Malformed fields of a known kind are read as none (R97). -/
theorem parseBody_malformed {kind : Byte} (hk : kind ∈ ([1, 2, 3, 4, 5, 6, 7] : List Byte)) (h : fieldsMalformed kind f) :
    parseBody kind f = none := by
  simp only [List.mem_cons, List.not_mem_nil, or_false] at hk
  rcases hk with rfl | rfl | rfl | rfl | rfl | rfl | rfl
  · exact parseProbe_malformed h
  · exact parseClear_malformed h
  · exact parseRefuse_malformed h
  · exact if_neg (mt List.isEmpty_iff.1 h)
  · exact if_neg (mt List.isEmpty_iff.1 h)
  · exact parseAbort_malformed h
  · exact if_neg (mt List.isEmpty_iff.1 h)

/-- A frame of a known kind with a bad sender or with malformed fields is malformed, whatever it declares (R97). -/
theorem parseFrame_malformed {own sender : Word16} {id : Word32} {kind declared hi lo : Byte}
    (hk : kind ∈ ([1, 2, 3, 4, 5, 6, 7] : List Byte)) (h : sender = 0 ∨ sender = own ∨ fieldsMalformed kind f) :
    parseFrame own ([kind, declared] ++ bytes16 sender ++ bytes32 id ++ f ++ [hi, lo]) = none := by
  rw [parseFrame_envelope]
  split
  next hfits =>
    obtain ⟨-, hzero, hown⟩ := hfits
    rw [parseBody_malformed hk ((h.resolve_left hzero).resolve_left hown)]; rfl
  · rfl

end

/-! ### The fields as the part composes them (R95) -/

theorem word16_nat16 {n : Nat} (h : n < 65536) :
    (word16 ((BitVec.ofNat 16 n >>> 8).setWidth 8) ((BitVec.ofNat 16 n).setWidth 8)).toNat = n := by
  rw [word16_bytes16, ofNat16_toNat h]

/-- The fields of a PROBE with any window byte and any step byte (R97). -/
theorem parseBody_probe {k f w len : Nat} {windowByte stepByte : Byte} {route : List Byte} (hk : 1 ≤ k) (hlt : k < len)
    (hlen : len ≤ 32) (hrun : (⟨f, w⟩ : Run).isSlotRun = true) (hroute : routeWellFormed len route = true) :
    parseBody 1 ([byte k] ++ nat16 f ++ [byte w, windowByte, stepByte, byte len] ++ route) =
      some (.probe k f w (max 1 (min 20 windowByte.toNat)) (max 1 (min 30 stepByte.toNat)) len route) := by
  obtain ⟨-, hw, hf, -⟩ := Run.isSlotRun_iff.1 hrun
  have hfirst := word16_nat16 (n := f) (by dsimp only at hf; omega)
  have hwidth : (byte w).toNat = w := byte_toNat (by dsimp only at hw; omega)
  refine (parseProbe_cons _ _ _ _ _ _ _ _).trans ?_
  rw [hfirst, hwidth, byte_toNat (n := k) (by omega), byte_toNat (n := len) (by omega),
    if_pos ⟨hk, hlt, by omega, hlen, hrun, hroute⟩]
  rfl

theorem parseBody_clear {hop : Nat} (h1 : 1 ≤ hop) (h2 : hop ≤ 31) : parseBody 2 [byte hop] = some (.clear hop) := by
  change (if 1 ≤ (byte hop).toNat ∧ (byte hop).toNat ≤ 31 then some (FrameBody.clear (byte hop).toNat) else none) = _
  rw [byte_toNat (by omega), if_pos ⟨h1, h2⟩]

theorem refuseCause_code {c : Cause} (h : c ∈ [Cause.nodeClosed, .duplicateId, .noContext, .routeInvalid, .slotBusy]) :
    refuseCause c.code = some c := by
  revert c; decide

theorem abortCause_code {c : Cause} (h : c ∈ [Cause.abortedLocal, .timeout, .guardFault, .reachShort, .overReach, .actuatorReject,
    .actuatorTimeout, .monitorTimeout]) : abortCause c.code = some c := by
  revert c; decide

theorem parseBody_refuse {c : Cause} {node : Word16} {hop : Nat} {slot : Option Nat}
    (hc : c ∈ [Cause.nodeClosed, .duplicateId, .noContext, .routeInvalid, .slotBusy]) (hnode : node ≠ 0) (h1 : 1 ≤ hop)
    (h2 : hop ≤ 31) (hslot : c = .slotBusy ↔ slot ≠ none) (hrange : ∀ k ∈ slot, k ≤ 383) :
    parseBody 3 (FrameBody.refuse c node hop slot).fields = some (.refuse c node hop slot) := by
  have hhop : (byte hop).toNat = hop := byte_toNat (by omega)
  cases slot with
  | none =>
    have hother : c ≠ .slotBusy := fun h => hslot.1 h rfl
    refine (parseRefuse_cons (refuseCause_code hc)).trans ?_
    rw [word16_bytes16, hhop, if_pos ⟨hnode, h1, h2⟩, if_neg hother]
    rfl
  | some k =>
    have hk : k ≤ 383 := hrange k rfl
    refine (parseRefuse_cons (refuseCause_code hc)).trans ?_
    rw [word16_bytes16, hhop, if_pos ⟨hnode, h1, h2⟩, if_pos (hslot.2 nofun), word16_nat16 (by omega), if_pos hk]

theorem parseBody_abort {c : Cause} {node : Word16} (hc : c ∈ [Cause.abortedLocal, .timeout, .guardFault, .reachShort, .overReach,
    .actuatorReject, .actuatorTimeout, .monitorTimeout]) (hnode : node ≠ 0) :
    parseBody 6 (FrameBody.abort c node).fields = some (.abort c node) := by
  refine (parseAbort_cons (abortCause_code hc)).trans ?_
  rw [word16_bytes16, if_pos hnode]

end Sys2Proof.Machine
end

section
/-! ## Frames that are taken and not acted on (R97, R98, R131, R181) -/

namespace Sys2Proof.Machine

namespace State

variable {s : State} {d : Degree} {f : RxFrame} {rest : List RxFrame} {frame : Frame} {i : CtxIx} {c : Context}

theorem modLink_modLink (s : State) (d : Degree) (f g : Link → Link) :
    (s.modLink d f).modLink d g = s.modLink d fun l => g (f l) := by
  simp only [State.modLink, put_put, Fin.getElem_fin, put_get_self]

/-- A change of a link depends on what it makes of that link as it stands. -/
theorem modLink_congr {f g : Link → Link} (h : f (s.link d) = g (s.link d)) : s.modLink d f = s.modLink d g :=
  congrArg (fun l => { s with links := put s.links d l }) h

/-- The head has left and the link is changed besides (R131): one change of the link, with its queue named. -/
theorem removeHead_modLink (hrx : (s.link d).rx = f :: rest) (g : Link → Link) :
    (s.removeHead d).modLink d g = s.modLink d fun l => g { l with rx := rest } := by
  rw [State.removeHead, modLink_modLink]
  exact modLink_congr (by rw [hrx]; rfl)

theorem removeHead_countMalformed (hrx : (s.link d).rx = f :: rest) : (s.removeHead d).countMalformed d = s.modLink d fun l =>
    { l with rx := rest, malformed := if l.malformed < 65535 then l.malformed + 1 else l.malformed } :=
  removeHead_modLink hrx _

theorem removeHead_countStray (hrx : (s.link d).rx = f :: rest) : (s.removeHead d).countStray d = s.modLink d fun l =>
    { l with rx := rest, stray := if l.stray < 65535 then l.stray + 1 else l.stray } :=
  removeHead_modLink hrx _

/-- A frame of the row's kinds that is malformed leaves the queue and is counted (R97, R131). -/
theorem takeFrame_malformed (hrx : (s.link d).rx = f :: rest) (hok : f.status = .ok) {ofRow : Byte → Bool}
    (hk : ofRow (kindByte f.bytes) = true) (hparse : parseFrame s.nodeId f.bytes = none) (act : Frame → State → State) :
    s.takeFrame d ofRow act = (s.removeHead d).countMalformed d := by
  unfold State.takeFrame
  rw [hrx]
  dsimp only
  rw [if_pos ⟨hok, hk⟩, hparse]

/-- A frame of no known kind is counted as malformed, whatever its fields (R181). -/
theorem takeFrame_unknown (hrx : (s.link d).rx = f :: rest) (hok : f.status = .ok) {ofRow : Byte → Bool}
    (hk : ofRow (kindByte f.bytes) = true) :
    (s.takeFrame d ofRow fun _ t => t.countMalformed d) = (s.removeHead d).countMalformed d := by
  unfold State.takeFrame
  rw [hrx]
  dsimp only
  rw [if_pos ⟨hok, hk⟩]
  split <;> rfl

/-- A frame for which no live context stands is stray (R98). -/
theorem forContext_of_noneLive (h : NoneLive s frame.lightpathId) (row : Context → Bool)
    (effect : CtxIx → Context → State → State) : s.forContext d frame row effect = s.countStray d := by
  unfold State.forContext
  rw [findLive_eq_none_iff.2 h]

end State

/-- A frame whose status is not OK leaves the queue and is counted as a receive error (R131). -/
theorem exec_receiveError_of_bad {s : State} {d : Degree} {f : RxFrame} {rest : List RxFrame} (hrx : (s.link d).rx = f :: rest)
    (hbad : f.status ≠ .ok) : exec (.receiveError d) s = .next (s.modLink d fun l =>
      { l with rx := rest, rxErrors := if l.rxErrors < 65535 then l.rxErrors + 1 else l.rxErrors }) := by
  change execReceiveError d s = _
  unfold execReceiveError
  rw [hrx]
  dsimp only
  rw [if_pos hbad, State.removeHead_modLink hrx]
  rfl

/-! ### The takings, kind by kind (R98, R131) -/

section
variable {s : State} {d : Degree} {frame : Frame}

/-- The row of each known kind takes the frames of that kind (R181). -/
theorem exec_frame_row {i : Instr} {kind : Byte} (h : (i, kind) ∈ ([(.probe d, 1), (.clear d, 2), (.refuse d, 3), (.light d, 4),
    (.lit d, 5), (.abort d, 6), (.teardown d, 7)] : List (Instr × Byte))) (s : State) :
    ∃ act, exec i s = .next (s.takeFrame d (· == kind) act) := by
  simp only [List.mem_cons, Prod.mk.injEq, List.not_mem_nil, or_false] at h
  rcases h with ⟨rfl, rfl⟩ | ⟨rfl, rfl⟩ | ⟨rfl, rfl⟩ | ⟨rfl, rfl⟩ | ⟨rfl, rfl⟩ | ⟨rfl, rfl⟩ | ⟨rfl, rfl⟩
  all_goals exact ⟨_, rfl⟩

theorem kind_of_row {i : Instr} {kind : Byte} (h : (i, kind) ∈ ([(.probe d, 1), (.clear d, 2), (.refuse d, 3), (.light d, 4),
    (.lit d, 5), (.abort d, 6), (.teardown d, 7)] : List (Instr × Byte))) : kind ∈ ([1, 2, 3, 4, 5, 6, 7] : List Byte) :=
  List.mem_map_of_mem (f := Prod.snd) h

theorem exec_clear_of_heads (h : Heads s d frame) {hop : Nat} (hb : frame.body = .clear hop) :
    exec (.clear d) s = .next ((s.removeHead d).forContext d frame (fun c => c.meetsClear d hop)
      fun i c u => u.takeClear i c) :=
  congrArg Host.Outcome.next ((State.takeFrame_of_heads h (by rw [hb]; rfl)).trans (by rw [hb]))

theorem exec_refuse_of_heads (h : Heads s d frame) {cause : Cause} {node : Word16} {hop : Nat} {slot : Option Nat}
    (hb : frame.body = .refuse cause node hop slot) :
    exec (.refuse d) s = .next ((s.removeHead d).forContext d frame (fun c => c.sides.downstream == some d && c.state == .probing)
      fun i c u => (u.endNeverLit i c (refusedEnding cause node hop slot)).offerTo c.sides.upstream c.lightpathId
        (.refuse cause node hop slot)) :=
  congrArg Host.Outcome.next ((State.takeFrame_of_heads h (by rw [hb]; rfl)).trans (by rw [hb]))

theorem exec_light_of_heads (h : Heads s d frame) (hb : frame.body = .light) :
    exec (.light d) s = .next ((s.removeHead d).forContext d frame (fun c => c.sides.upstream == some d && c.state == .reserved)
      fun i c u => u.joinLine i c) :=
  congrArg Host.Outcome.next (State.takeFrame_of_heads h (by rw [hb]; rfl))

theorem exec_lit_of_heads (h : Heads s d frame) (hb : frame.body = .lit) :
    exec (.lit d) s = .next ((s.removeHead d).forContext d frame (fun c => c.sides.downstream == some d && c.state == .passed)
      fun i c u => u.takeLit i c) :=
  congrArg Host.Outcome.next (State.takeFrame_of_heads h (by rw [hb]; rfl))

theorem exec_abort_of_heads (h : Heads s d frame) {origin : Cause} {node : Word16} (hb : frame.body = .abort origin node) :
    exec (.abort d) s = .next ((s.removeHead d).forContext d frame
      (fun c => c.sides.upstream == some d || c.sides.downstream == some d) fun i c u => u.takeAbort d i c origin node) :=
  congrArg Host.Outcome.next ((State.takeFrame_of_heads h (by rw [hb]; rfl)).trans (by rw [hb]))

theorem exec_teardown_of_heads (h : Heads s d frame) (hb : frame.body = .teardown) :
    exec (.teardown d) s = .next ((s.removeHead d).forContext d frame
      (fun c => c.sides.upstream == some d && c.state == .inService) fun i c u => u.takeTeardown d i c) :=
  congrArg Host.Outcome.next (State.takeFrame_of_heads h (by rw [hb]; rfl))

/-- A well-formed frame of any kind but PROBE is taken for a context (R98). -/
theorem exec_of_heads_forContext (h : Heads s d frame) {i : Instr} (hi : (i, frame.body.kind) ∈ ([(.clear d, 2), (.refuse d, 3),
    (.light d, 4), (.lit d, 5), (.abort d, 6), (.teardown d, 7)] : List (Instr × Byte))) :
    ∃ row effect, exec i s = .next ((s.removeHead d).forContext d frame row effect) := by
  cases hb : frame.body <;> simp [hb, FrameBody.kind] at hi <;> subst hi
  case clear => exact ⟨_, _, exec_clear_of_heads h hb⟩
  case refuse => exact ⟨_, _, exec_refuse_of_heads h hb⟩
  case light => exact ⟨_, _, exec_light_of_heads h hb⟩
  case lit => exact ⟨_, _, exec_lit_of_heads h hb⟩
  case abort => exact ⟨_, _, exec_abort_of_heads h hb⟩
  case teardown => exact ⟨_, _, exec_teardown_of_heads h hb⟩

/-- A row of two tests is unmet where either test fails. -/
theorem row_unmet {α β : Type} [BEq α] [LawfulBEq α] [BEq β] [LawfulBEq β] {a a' : α} {b b' : β} (h : a ≠ a' ∨ b ≠ b') :
    (a == a' && b == b') = false := by
  rw [Bool.and_eq_false_iff, beq_eq_false_iff_ne, beq_eq_false_iff_ne]; exact h

/-- The row of CLEAR is unmet by its link, by its state, or by the hop index (R98). -/
theorem Context.meetsClear_eq_false {c : Context} {hop : Nat}
    (h : c.sides.downstream ≠ some d ∨ c.state ≠ .probing ∨ (∀ k, c.hopIndex = some k → hop ≠ k + 1)) :
    c.meetsClear d hop = false := by
  rw [Context.meetsClear, Bool.and_eq_false_iff]
  rcases h with h | h | h
  · exact .inl (row_unmet (.inl h))
  · exact .inl (row_unmet (.inr h))
  · exact .inr (Option.any_eq_false _ _ |>.2 fun k hk => by simpa using h k hk)

end

end Sys2Proof.Machine

open Sys2Proof Sys2Proof.Machine

/-- Settles O33: what stands at the head of the queue decides the count, and the head has left in each case. -/
theorem untakenFramesAreCountedOnce : Obligations.UntakenFramesAreCountedOnce := by
  rintro s d f rest malformed stray hrx rfl rfl
  rw [← State.removeHead_countMalformed hrx, ← State.removeHead_countStray hrx]
  refine ⟨exec_receiveError_of_bad hrx, fun hok hkind => ?_, fun i kind hok hrow => ?_, fun frame i hok hparse hnone hrow => ?_,
    fun frame i c hok hparse hlive => ?_⟩
  · refine congrArg Host.Outcome.next (State.takeFrame_unknown hrx hok ?_)
    change (decide ((f.bytes.getD 0 0).toNat < 1) || decide (7 < (f.bytes.getD 0 0).toNat)) = true
    rcases hkind with h | h
    · rw [h]; rfl
    · rw [decide_eq_true h, Bool.or_true]
  · obtain ⟨act, hexec⟩ := exec_frame_row hrow s
    have counted (hk : kindByte f.bytes = kind) (hparse : parseFrame s.nodeId f.bytes = none) :
        exec i s = .next ((s.removeHead d).countMalformed d) :=
      hexec.trans (congrArg Host.Outcome.next (State.takeFrame_malformed hrx hok (ofRow := (· == kind))
        (beq_iff_eq.2 hk) hparse act))
    refine ⟨fun hk hshort => counted hk (parseFrame_short hshort), fun declared hi lo sender id fields hbytes hbad => ?_⟩
    refine counted (by rw [hbytes]; rfl) ?_
    rw [hbytes]
    exact parseFrame_malformed (kind_of_row hrow) hbad
  · obtain ⟨row, effect, hexec⟩ := exec_of_heads_forContext ⟨f, rest, hrx, hok, hparse⟩ hrow
    exact hexec.trans (congrArg Host.Outcome.next (State.forContext_of_noneLive (s := s.removeHead d) hnone row effect))
  · have hheads : Heads s d frame := ⟨f, rest, hrx, hok, hparse⟩
    have strays {row : Context → Bool} {effect : CtxIx → Context → State → State} (h : row c = false) :
        Host.Outcome.next (φ := Fault) (ρ := Refusal) ((s.removeHead d).forContext d frame row effect) =
          .next ((s.removeHead d).countStray d) :=
      congrArg Host.Outcome.next (State.forContext_of_unmet (State.removeHead_theLive hlive d) h)
    refine ⟨fun hop hb hno => ?_, fun cause node hop slot hb hno => ?_, fun hb hno => ?_, fun hb hno => ?_,
      fun origin node hb hup hdown => ?_, fun hb hno => ?_⟩
    · exact (exec_clear_of_heads hheads hb).trans (strays (Context.meetsClear_eq_false hno))
    · exact (exec_refuse_of_heads hheads hb).trans (strays (row_unmet hno))
    · exact (exec_light_of_heads hheads hb).trans (strays (row_unmet hno))
    · exact (exec_lit_of_heads hheads hb).trans (strays (row_unmet hno))
    · exact (exec_abort_of_heads hheads hb).trans (strays (by simp [hup, hdown]))
    · exact (exec_teardown_of_heads hheads hb).trans (strays (row_unmet hno))
end

section
/-! ## Composed frames read back (R95, R97, R129, R181) -/

namespace Sys2Proof.Machine

/-! ### The check (R181) -/

/-- A byte enters the check behind the bytes before it. -/
theorem frameCheck_append_byte (l : List Byte) (b : Byte) : ~~~frameCheck (l ++ [b]) = crcByte (~~~frameCheck l) b := by
  rw [frameCheck, frameCheck, BitVec.not_not, BitVec.not_not, List.foldl_append]; rfl

/-! ### Reading back (R129, R181) -/

/-- What the check of a frame covers: its bytes from the kind to the last field (R181). -/
def Frame.text (f : Frame) : List Byte :=
  [f.body.kind, byte (10 + f.body.fields.length)] ++ bytes16 f.sender ++ bytes32 f.lightpathId ++ f.body.fields

theorem Frame.encode_eq (f : Frame) : f.encode = f.text ++ bytes16 (frameCheck f.text) := rfl

theorem refuse_fields_length (c : Cause) (node : Word16) (hop : Nat) (slot : Option Nat) :
    (FrameBody.refuse c node hop slot).fields.length = 6 := by
  cases slot <;> rfl

/-- The part's own bytes pass their check: the declared length is the number of bytes, and the check is the last two (R129). -/
theorem Frame.encode_status {f : Frame} (hlen : 10 + f.body.fields.length < 256) :
    receiveStatus f.encode = .ok ∧ frameBytes f.encode = f.encode := by
  have htext : f.text.length + 2 = (byte (10 + f.body.fields.length)).toNat := by
    rw [byte_toNat hlen]; simp [Frame.text, bytes16_length, bytes32_length]; omega
  rw [f.encode_eq]
  obtain ⟨hbytes, hstatus⟩ := receiveStatus_split (past := []) (List.append_nil (f.text ++ bytes16 (frameCheck f.text))).symm
    htext (by simp [Frame.text])
  exact ⟨hstatus.trans (if_pos (word16_bytes16 _)), hbytes⟩

theorem Frame.parseFrame_encode {own : Word16} {f : Frame} (hzero : f.sender ≠ 0) (hown : f.sender ≠ own)
    (hlen : 10 + f.body.fields.length < 256) (hbody : parseBody f.body.kind f.body.fields = some f.body) :
    parseFrame own f.encode = some f := by
  refine (parseFrame_envelope own f.sender f.lightpathId f.body.kind _ _ _ f.body.fields).trans ?_
  rw [byte_toNat hlen, if_pos ⟨rfl, hzero, hown⟩, hbody]
  rfl

/-- A frame whose fields read back, reads back as itself (R129, R181). -/
theorem Frame.reads_back {own : Word16} {f : Frame} (hzero : f.sender ≠ 0) (hown : f.sender ≠ own)
    (hlen : 10 + f.body.fields.length < 256) (hbody : parseBody f.body.kind f.body.fields = some f.body) :
    parseFrame own f.encode = some f ∧ receiveStatus f.encode = .ok ∧ frameBytes f.encode = f.encode :=
  ⟨f.parseFrame_encode hzero hown hlen hbody, f.encode_status hlen⟩

end Sys2Proof.Machine

open Sys2Proof Sys2Proof.Machine

/-- Settles O52: the bytes of numbers, the envelope around the fields of each kind, and the check over both. -/
theorem composedFrameReadsBack : Obligations.ComposedFrameReadsBack := by
  refine ⟨fun ⟨n, id, body⟩ kind fields text hfields htext => ?_, fun v w => ⟨bytes16_eq v, bytes32_eq w⟩,
    fun n => ⟨toNat_byte n, nat16_eq n, nat32_eq n⟩, fun d => int16_eq, ?_, rfl, frameCheck_append_byte, ?_⟩
  · subst htext
    cases body <;> cases hfields <;> rfl
  · intro own n id k f w len windowByte stepByte hi lo route hzero hown hk hlt hlen2 hlen hw2 hw hf hfw hroute hdegrees hdrop
    have hdeclared : 10 + ([byte k] ++ nat16 f ++ [byte w, windowByte, stepByte, byte len] ++ route).length =
        (byte (17 + len)).toNat := by
      rw [byte_toNat (by omega), ← hroute]; simp [nat16_length]; omega
    rw [parseFrame_envelope, if_pos ⟨hdeclared, hzero, hown⟩, parseBody_probe hk hlt hlen (Run.isSlotRun_iff.2 ⟨hw2, hw, hf, hfw⟩)
      (routeWellFormed_iff.2 ⟨hroute, hdegrees, hdrop⟩)]
    rfl
  · rintro own ⟨n, id, body⟩ hzero hown hranges
    cases body with
    | probe hop first width window step len route =>
      obtain ⟨hhop, hlt, hlen2, hlen, hw2, hw, hf, hfw, hwin1, hwin, hstep1, hstep, hroute, hdegrees, hdrop⟩ := hranges
      refine Frame.reads_back hzero hown ?_ ((parseBody_probe hhop hlt hlen (Run.isSlotRun_iff.2 ⟨hw2, hw, hf, hfw⟩)
        (routeWellFormed_iff.2 ⟨hroute, hdegrees, hdrop⟩)).trans ?_)
      · simp [FrameBody.fields, nat16_length]; omega
      · rw [byte_toNat (n := window) (by omega), byte_toNat (n := step) (by omega), Nat.min_eq_right hwin, Nat.min_eq_right hstep,
          Nat.max_eq_right hwin1, Nat.max_eq_right hstep1]
    | clear hop =>
      obtain ⟨h1, h2⟩ := hranges
      exact Frame.reads_back hzero hown (show 11 < 256 by decide) (parseBody_clear h1 h2)
    | refuse cause node hop slot =>
      obtain ⟨hcause, hnode, h1, h2, hslot, hrange⟩ := hranges
      exact Frame.reads_back hzero hown (refuse_fields_length cause node hop slot ▸ show 16 < 256 by decide)
        (parseBody_refuse hcause hnode h1 h2 hslot hrange)
    | abort origin node => exact Frame.reads_back hzero hown (show 13 < 256 by decide) (parseBody_abort hranges.1 hranges.2)
    | light => exact Frame.reads_back hzero hown (show 10 < 256 by decide) rfl
    | lit => exact Frame.reads_back hzero hown (show 10 < 256 by decide) rfl
    | teardown => exact Frame.reads_back hzero hown (show 10 < 256 by decide) rfl
end

section
/-! ## LINK CONTROL and the carrier of a link (R125 to R128, R168) -/

namespace Sys2Proof.Machine

/-- A change that leaves the link as it stands leaves the state. -/
theorem State.modLink_self {s : State} {d : Degree} {f : Link → Link} (h : f (s.link d) = s.link d) : s.modLink d f = s :=
  (State.modLink_congr (g := id) h).trans (congrArg (fun v => { s with links := v }) (put_self s.links d))

/-! ### A link by its state (R125, R126) -/

namespace Link

variable {l : Link}

theorem enable_disabled (h : l.state = .disabled) : l.enable = { l with state := if l.carrier then .up else .down } := by
  rw [enable, h]

theorem enable_enabled (h : l.state ≠ .disabled) : l.enable = l := by
  unfold enable
  split
  next hdisabled => exact absurd hdisabled h
  all_goals rfl

theorem disable_down (h : l.state = .down) : l.disable = { l with state := .disabled, rx := [] } := by
  rw [disable, h]

theorem disable_up (h : l.state = .up) :
    l.disable = { l with state := if l.tx = [] then .disabled else .draining, rx := [] } := by
  rw [disable, h]
  simp only [List.isEmpty_iff]

theorem disable_closed (h : l.state = .disabled ∨ l.state = .draining) : l.disable = l := by
  rcases h with h | h <;> rw [disable, h]

theorem arrive_eq (l : Link) : l.arrive = { l with carrier := true, state := if l.state = .down then .up else l.state } := by
  unfold arrive
  cases h : l.state <;> rfl

theorem lose_silent (h : l.state = .down ∨ l.state = .disabled) : l.lose = { l with carrier := false } := by
  rcases h with h | h <;> rw [lose, h]

/-- A loss that drops the transmit queue (R126): each frame is a transmit drop, up to the count's bound. -/
theorem lose_dropping (h : l.state = .up ∨ l.state = .draining) (hdrops : l.txDrops ≤ 65535) : l.lose = { l with
    carrier := false
    state := if l.state = .up then .down else .disabled
    tx := []
    txDrops := min 65535 (l.txDrops + l.tx.length) } := by
  rcases h with h | h <;> simp only [lose, h, dropAll, countUpBy_eq _ _ hdrops] <;> rfl

end Link

/-! ### The loss of a carrier, with its alert (R126) -/

section
variable {s : State} {d : Degree}

theorem carrierLoss_silent (h : (s.link d).state = .down ∨ (s.link d).state = .disabled) :
    s.carrierLoss d = s.modLink d fun l => { l with carrier := false } := by
  have hsilent : (s.link d).state.lossRaises ≠ true := by rcases h with h | h <;> rw [h] <;> nofun
  rw [State.carrierLoss, if_neg hsilent]
  exact State.modLink_congr (Link.lose_silent h)

theorem carrierLoss_dropping (h : (s.link d).state = .up ∨ (s.link d).state = .draining) (hdrops : (s.link d).txDrops ≤ 65535) :
    s.carrierLoss d = (s.modLink d fun l => { l with
      carrier := false
      state := if l.state = .up then .down else .disabled
      tx := []
      txDrops := min 65535 (l.txDrops + l.tx.length) }).raiseLinkDown := by
  have hraises : (s.link d).state.lossRaises = true := by rcases h with h | h <;> rw [h] <;> rfl
  rw [State.carrierLoss, if_pos hraises]
  exact congrArg State.raiseLinkDown (State.modLink_congr (Link.lose_dropping h hdrops))

/-! ### The bodies of LINK CONTROL (R168) -/

theorem linkEnableBody_badArgument {n order : Byte} (h : 7 < n.toNat ∨ order ≠ 1) (s : State) :
    linkEnableBody [n, order] s = .refused .badArgument := by
  rcases h with hn | horder
  · rw [linkEnableBody, byteAt_cons_zero, degreeArg_eq_none hn]
  · unfold linkEnableBody
    split
    · rfl
    · exact if_pos horder

theorem linkDisableBody_badArgument {n order : Byte} (h : 7 < n.toNat ∨ order ≠ 2) (s : State) :
    linkDisableBody [n, order] s = .refused .badArgument := by
  rcases h with hn | horder
  · rw [linkDisableBody, byteAt_cons_zero, degreeArg_eq_none hn]
  · unfold linkDisableBody
    split
    · rfl
    · exact if_pos horder

/-- The enable past its argument checks: DRAINING alone refuses it (R128). -/
theorem linkEnableBody_eq (s : State) (d : Degree) : linkEnableBody [indexByte d, 1] s =
    if (s.link d).state = .draining then .refused .wrongState else .accepted (s.modLink d Link.enable) [] := by
  rw [linkEnableBody, byteAt_cons_zero, degreeArg_indexByte]
  rfl

theorem linkDisableBody_eq (s : State) (d : Degree) :
    linkDisableBody [indexByte d, 2] s = .accepted (s.modLink d Link.disable) [] := by
  rw [linkDisableBody, byteAt_cons_zero, degreeArg_indexByte]
  rfl

/-! ### The executions of LINK CONTROL (R125, R127, R128) -/

theorem linkControlEnable_badArgument {n order : Byte} (h : Executes s 0 0x16 [n, order]) (hrow : order ≠ 2)
    (hbad : 7 < n.toNat ∨ order ≠ 1) : exec .linkControlEnable s = .next ((s.taken 0).refusing 0 0x16 0x05 []) :=
  runCommand_refused h (by simpa [isEnable] using hrow) rfl rfl
    ((stationZero_zero _ _ _).trans (linkEnableBody_badArgument hbad _))

theorem linkControlDisable_badArgument {n order : Byte} (h : Executes s 0 0x16 [n, order]) (hrow : order ≠ 1)
    (hbad : 7 < n.toNat ∨ order ≠ 2) : exec .linkControlDisable s = .next ((s.taken 0).refusing 0 0x16 0x05 []) :=
  runCommand_refused h (by simpa [isDisable] using hrow) rfl rfl
    ((stationZero_zero _ _ _).trans (linkDisableBody_badArgument hbad _))

theorem linkControlEnable_draining (h : Executes s 0 0x16 [indexByte d, 1]) (hstate : (s.link d).state = .draining) :
    exec .linkControlEnable s = .next ((s.taken 0).refusing 0 0x16 0x0A []) :=
  runCommand_refused h rfl rfl rfl
    ((stationZero_zero _ _ _).trans ((linkEnableBody_eq (s.taken 0) d).trans (if_pos hstate)))

/-- An accepted enable, with what it makes of the link named (R125). -/
theorem linkControlEnable_accepted (h : Executes s 0 0x16 [indexByte d, 1]) (hstate : (s.link d).state ≠ .draining) {t : State}
    (ht : (s.taken 0).modLink d Link.enable = t) : exec .linkControlEnable s = .next (t.accepting 0 0x16 []) :=
  ht ▸ runCommand_accepted h rfl rfl rfl ((stationZero_zero _ _ _).trans ((linkEnableBody_eq (s.taken 0) d).trans (if_neg hstate)))

/-- An accepted disable, with what it makes of the link named (R125, R127). -/
theorem linkControlDisable_accepted (h : Executes s 0 0x16 [indexByte d, 2]) {t : State}
    (ht : (s.taken 0).modLink d Link.disable = t) : exec .linkControlDisable s = .next (t.accepting 0 0x16 []) :=
  ht ▸ runCommand_accepted h rfl rfl rfl ((stationZero_zero _ _ _).trans (linkDisableBody_eq (s.taken 0) d))

end
end Sys2Proof.Machine

open Sys2Proof Sys2Proof.Machine

/-- Settles O21: each row refuses bad arguments, and past the checks the link's state decides what the order makes of it. -/
theorem linkControlMovesTheLink : Obligations.LinkControlMovesTheLink := by
  refine ⟨fun s n order h hbad => ⟨fun hrow => linkControlEnable_badArgument h hrow (hbad.imp_right And.left),
    fun hrow => linkControlDisable_badArgument h hrow (hbad.imp_right And.right)⟩,
    fun s d => ⟨fun h => ⟨fun hdisabled => ?_, fun henabled => ?_, linkControlEnable_draining h⟩,
      fun h => ⟨fun hdown => ?_, fun hup => ?_, fun hclosed => ?_⟩⟩⟩
  · exact linkControlEnable_accepted h (by rw [hdisabled]; nofun) (State.modLink_congr (Link.enable_disabled hdisabled))
  · have hstate : (s.link d).state ≠ .draining ∧ (s.link d).state ≠ .disabled := by
      rcases henabled with hs | hs <;> rw [hs] <;> exact ⟨nofun, nofun⟩
    exact linkControlEnable_accepted h hstate.1 (State.modLink_self (Link.enable_enabled hstate.2))
  · exact linkControlDisable_accepted h (State.modLink_congr (Link.disable_down hdown))
  · exact linkControlDisable_accepted h (State.modLink_congr (Link.disable_up hup))
  · exact linkControlDisable_accepted h (State.modLink_self (Link.disable_closed hclosed))

/-- Settles O31: an arrival by the link's equation, and a loss by whether it drops the transmit queue. -/
theorem carrierChangesMoveTheLink : Obligations.CarrierChangesMoveTheLink := fun s d =>
  ⟨congrArg Host.Outcome.next (State.modLink_congr (Link.arrive_eq (s.link d))),
    fun h => congrArg Host.Outcome.next (carrierLoss_silent h),
    fun h hdrops => congrArg Host.Outcome.next (carrierLoss_dropping h hdrops)⟩
end

section
/-! ## Settings on the Actuator Port (R142, R143, R182) -/

namespace Sys2Proof.Machine

/-! ### The bytes of a setting (R142, R182) -/

/-- The bytes of a setting behind its tag, its kind, its point and its run (R182). -/
def SettingBody.bytes : SettingBody → List Byte
  | .block => []
  | .attenSet a => [byte a]
  | .routeSet (.addPort port) a => [1, indexByte port, byte a]
  | .routeSet (.ingress d) a => [2, indexByte d, byte a]
  | .routeSet (.dropPort port) a => [3, indexByte port, byte a]

/-- The code of a kind of setting (R182). -/
def SettingKind.code : SettingKind → Byte
  | .routeSet => 1
  | .attenSet => 2
  | .block => 3

theorem Setting.encode_eq (m : Setting) : m.encode =
    [m.tag, m.body.kind.code, indexByte m.point] ++ nat16 m.run.first ++ byte m.run.width :: m.body.bytes := by
  obtain ⟨tag, p, run, body⟩ := m
  cases body with
  | block => rfl
  | attenSet a => rfl
  | routeSet source a => cases source <;> rfl

/-! ### The order of sending (R143) -/

variable {s : State}

theorem sentInFull_eq (o : Option Setting) : sentInFull o = (o.map fun x => Output.setting x.encode).toList := by
  cases o <;> rfl

theorem exec_settingTransmission (s : State) : exec .settingTransmission s = .next { s with
    sending := s.toSend.head?, toSend := s.toSend.tail
    outputs := s.outputs ++ (s.sending.map fun x => Output.setting x.encode).toList } := by
  rw [← sentInFull_eq]
  rfl

theorem exec_settingTransmission_waiting {m : Setting} {rest : List Setting} (h : s.toSend = m :: rest) :
    exec .settingTransmission s = .next { s with
      toSend := rest, sending := some m
      outputs := s.outputs ++ (s.sending.map fun x => Output.setting x.encode).toList } := by
  rw [exec_settingTransmission, h]
  rfl

theorem exec_settingTransmission_none_waiting (h : s.toSend = []) :
    exec .settingTransmission s = .next { s with
      sending := none, outputs := s.outputs ++ (s.sending.map fun x => Output.setting x.encode).toList } := by
  rw [exec_settingTransmission, h, List.head?_nil, List.tail_nil, ← h]

end Sys2Proof.Machine

open Sys2Proof Sys2Proof.Machine

/-- Settles O47: the bytes by the kind and its fields, the first free tag, and the head of the waiting settings. -/
theorem settingsAreSentInOrder : Obligations.SettingsAreSentInOrder := by
  refine ⟨fun tag p run a port d m hm => ?_, fun s p run body => ⟨_, tagGiven_firstFreeTag s, rfl⟩,
    fun s => ⟨fun _ _ => exec_settingTransmission_waiting, exec_settingTransmission_none_waiting⟩⟩
  have hbytes (body : SettingBody) : m body =
      [tag, body.kind.code, indexByte p] ++ nat16 run.first ++ byte run.width :: body.bytes :=
    (hm body).trans (Setting.encode_eq _)
  exact ⟨hbytes .block, hbytes (.attenSet a), hbytes (.routeSet (.addPort port) a), hbytes (.routeSet (.ingress d) a),
    hbytes (.routeSet (.dropPort port) a)⟩
end

section
/-! ## Transactions of the shelf bus, byte by byte (R148 to R156) -/

namespace Sys2Proof.Machine

variable {s : State} {b : BusStart} {st : Station}

/-! ### The end of a transaction (R149, R150) -/

/-- What the end of a transaction leaves of the blocks beside the intakes (R149). -/
theorem endTransaction_outputs (s : State) : s.endTransaction.outputs = s.outputs := by rw [State.endTransaction_eq]

theorem endTransaction_attentionByte (s : State) (st : Station) : s.endTransaction.attentionByte st = s.attentionByte st := by
  rw [State.endTransaction_eq]; rfl

theorem endTransaction_of_filling {c : Command} (hb : s.bus = .write st) (hi : s.intakes[st] = .filling c) :
    s.endTransaction = { s with bus := .idle, intakes := put s.intakes st (.full { c with truncated := true }) } := by
  simp only [State.endTransaction, hb, hi]; rfl

theorem endTransaction_of_none_filling (h : ∀ st, s.bus = .write st → ∀ c, s.intakes[st] ≠ .filling c) :
    s.endTransaction = { s with bus := .idle } := by
  unfold State.endTransaction
  dsimp only
  split
  next st hb =>
    split
    next c hi => exact absurd hi (h st hb c)
    all_goals rfl
  all_goals rfl

/-! ### The addresses and the source of a transaction (R148, R149, R180) -/

theorem strapAddress_toNat (h : s.strap ≠ 0) : ∃ a, s.strapAddress = some a ∧ a.toNat = 8 + s.strap.toNat := by
  refine ⟨8 + s.strap.setWidth 4, if_neg h, ?_⟩
  have := s.strap.isLt
  have h8 : (8 : BitVec 4).toNat = 8 := rfl
  rw [BitVec.toNat_add, BitVec.toNat_setWidth, h8]
  omega

theorem addressTarget_toNat (a : Byte) : (addressTarget a).toNat = a.toNat / 16 := by
  have := a.isLt
  simp only [addressTarget, BitVec.toNat_setWidth, BitVec.toNat_ushiftRight, Nat.shiftRight_eq_div_pow]
  omega

theorem addressDirection_toNat (a : Byte) : (addressDirection a).toNat = a.toNat / 4 % 4 := by
  simp only [addressDirection, BitVec.toNat_setWidth, BitVec.toNat_ushiftRight, Nat.shiftRight_eq_div_pow]

theorem sourceStation_eq_some {a : Byte} (h : a.toNat = st.val) : sourceStation a = some st := by
  have := st.isLt
  simp [sourceStation, h]

theorem sourceStation_eq_none {a : Byte} (h : 8 < a.toNat) : sourceStation a = none := by
  rw [sourceStation, dif_neg (by omega)]

/-! ### The opening of a transaction (R149) -/

theorem startTransaction_other_target (h : s.strapAddress ≠ some (addressTarget b.address)) :
    s.startTransaction b = s.endTransaction := if_pos h

theorem startTransaction_write (h : Addressed s b st 1) :
    s.startTransaction b = { s.endTransaction with bus := .write st } := by
  simp [State.startTransaction, h.target, h.marked, h.station, h.direction]

theorem startTransaction_read (h : Addressed s b st 2) :
    s.startTransaction b = { s.endTransaction with
      holders := put s.endTransaction.holders st none
      bus := .read st ((s.endTransaction.holders[st]).getD [0xFF]) } := by
  simp [State.startTransaction, h.target, h.marked, h.station, h.direction, State.setHolder, noReply]

theorem startTransaction_poll (h : Addressed s b st 3) :
    s.startTransaction b = { s.endTransaction with outputs := s.outputs ++ [.pollByte st (s.attentionByte st)] } := by
  simp [State.startTransaction, h.target, h.marked, h.station, h.direction, endTransaction_outputs,
    endTransaction_attentionByte]

/-- Each reason to discard a transaction leads to the same state (R149). -/
theorem startTransaction_discarded (h : Discarded s b) :
    s.startTransaction b = { s.endTransaction with bus := .discarding } := by
  obtain ⟨ht, hr⟩ := h
  rw [State.startTransaction, if_neg (not_not.2 ht)]
  cases hm : b.sourceMarked with
  | false => rfl
  | true =>
    dsimp only
    rw [if_neg (by decide)]
    cases hs : sourceStation b.source with
    | none => rfl
    | some st =>
      have hd : addressDirection b.address = 0 := by
        rcases hr with hf | h8 | hd
        · simp [hm] at hf
        · simp [sourceStation_eq_none h8] at hs
        · exact hd
      simp [hd]

theorem exec_write_opening (s : State) (b : BusStart) (data : List Byte) (e : Bool) :
    exec (.write (some b) data e) s = .next (State.writeBytes data e (s.startTransaction b)) := rfl

theorem exec_read_opening (s : State) (b : BusStart) (n : Nat) :
    exec (.read (some b) n) s = .next (State.readBytes n (s.startTransaction b)) := rfl

/-! ### The bytes of a WRITE (R150, R151) -/

/-- The bytes that follow a command's first one: 63 of them are stored, and one beyond marks the command overlength (R150). -/
theorem foldl_store {c : Command} (h : c.rest.length ≤ 63) (l : List Byte) :
    l.foldl Command.store c = { c with
      rest := (c.rest ++ l).take 63
      overlength := c.overlength || decide (63 < (c.rest ++ l).length) } := by
  induction l generalizing c with
  | nil => simp [List.take_of_length_le h, Nat.not_lt.2 h]
  | cons x xs ih =>
    rw [List.foldl_cons, ih (BusConsistent.fits_store h x)]
    unfold Command.store
    split
    · simp
    next hlen =>
      have hfull : c.rest.length = 63 := by omega
      simp [hfull]

theorem writeByte_filling {c : Command} (hi : s.intakes[st] = .filling c) (x : Byte) (e : Bool) :
    s.writeByte st x e =
      { s with intakes := put s.intakes st (intakeWith (c.store x) e), bus := if e then .idle else .write st } := by
  simp only [State.writeByte, hi]; rfl

theorem writeByte_empty (hi : s.intakes[st] = .empty) (x : Byte) (e : Bool) :
    s.writeByte st x e =
      { s with intakes := put s.intakes st (intakeWith (Command.start x) e), bus := if e then .idle else .write st } := by
  simp only [State.writeByte, hi]; rfl

theorem writeBytes_write (hb : s.bus = .write st) (x : Byte) (xs : List Byte) (e : Bool) :
    State.writeBytes (x :: xs) e s = State.writeBytes xs e (s.writeByte st x (e && xs.isEmpty)) := by
  rw [State.writeBytes]; simp only [hb]

/-- Where a byte is stored, the bytes behind it go after it (R150): by induction on these bytes. -/
theorem writeBytes_stored {d : Command} (hb : s.bus = .write st) {x : Byte} (xs : List Byte) (e : Bool)
    (hx : ∀ f, s.writeByte st x f =
      { s with intakes := put s.intakes st (intakeWith d f), bus := if f then .idle else .write st }) :
    State.writeBytes (x :: xs) e s = { s with
      intakes := put s.intakes st (intakeWith (xs.foldl Command.store d) e), bus := if e then .idle else .write st } := by
  induction xs generalizing s x d with
  | nil => rw [writeBytes_write hb, hx, List.isEmpty_nil, Bool.and_true]; rfl
  | cons y ys ih =>
    have hfilling : (put s.intakes st (.filling d))[st] = .filling d := put_get_self _ _ _
    rw [writeBytes_write hb, hx, List.isEmpty_cons, Bool.and_false]
    refine (ih rfl (writeByte_filling hfilling y)).trans ?_
    simp only [put_put, List.foldl_cons]

theorem writeBytes_filling {c : Command} (hb : s.bus = .write st) (hi : s.intakes[st] = .filling c)
    (hc : c.rest.length ≤ 63) (x : Byte) (xs : List Byte) (e : Bool) :
    State.writeBytes (x :: xs) e s = { s with
      intakes := put s.intakes st (intakeWith { c with
        rest := (c.rest ++ x :: xs).take 63
        overlength := c.overlength || decide (63 < (c.rest ++ x :: xs).length) } e)
      bus := if e then .idle else .write st } := by
  rw [writeBytes_stored hb xs e (writeByte_filling hi x), ← foldl_store hc]; rfl

theorem writeBytes_empty (hb : s.bus = .write st) (hi : s.intakes[st] = .empty) (x : Byte) (xs : List Byte) (e : Bool) :
    State.writeBytes (x :: xs) e s = { s with
      intakes := put s.intakes st (intakeWith ⟨x, xs.take 63, decide (63 < xs.length), false⟩ e)
      bus := if e then .idle else .write st } := by
  rw [writeBytes_stored hb xs e (writeByte_empty hi x), foldl_store (Nat.zero_le _)]
  simp only [Command.start, List.nil_append, Bool.false_or]
  rfl

/-- A byte that finds its intake FULL is held, and the bytes behind it are not presented (R151, log entry 7). -/
theorem writeBytes_full {c : Command} (hb : s.bus = .write st) (hi : s.intakes[st] = .full c) (x : Byte) (xs : List Byte)
    (e : Bool) : State.writeBytes (x :: xs) e s = { s with bus := .held st x (e && xs.isEmpty) } := by
  rw [writeBytes_write hb, State.writeByte]
  simp only [hi]
  cases xs <;> rfl

theorem writeBytes_discarding (hb : s.bus = .discarding) (data : List Byte) (e : Bool) :
    State.writeBytes data e s = { s with bus := if e = true ∧ data ≠ [] then .idle else .discarding } := by
  induction data with
  | nil => simp [State.writeBytes, ← hb]
  | cons x xs ih =>
    rw [State.writeBytes]
    simp only [hb]
    split
    next h => simp_all
    next h =>
      rw [ih]
      cases xs with
      | nil => simp_all
      | cons y ys => simp

/-- Outside a WRITE there is no byte to take (log entry 7). -/
theorem writeBytes_outside (hd : s.bus ≠ .discarding) (hw : ∀ st, s.bus ≠ .write st) (data : List Byte) (e : Bool) :
    State.writeBytes data e s = s := by
  cases data with
  | nil => rfl
  | cons x xs =>
    rw [State.writeBytes]
    split
    next st hb => exact absurd hb (hw st)
    next hb => exact absurd hb hd
    · rfl

/-! ### The bytes of a READ (R153) -/

/-- The station takes fewer bytes than the transfer has. -/
theorem readBytes_of_lt {rest : List Byte} {n : Nat} (hb : s.bus = .read st rest) (hn : n < rest.length) :
    State.readBytes n s = { s with
      bus := .read st (rest.drop n), outputs := s.outputs ++ (rest.take n).map fun x => .readByte st x false } := by
  induction n generalizing s rest with
  | zero => simp [State.readBytes, ← hb]
  | succ n ih =>
    match rest, hn with
    | x :: y :: l, hn =>
      rw [State.readBytes]
      simp only [hb]
      rw [ih rfl (by simpa using hn)]
      simp

/-- The station takes them all: the last one carries the END mark. -/
theorem readBytes_of_le {rest : List Byte} {n : Nat} (hb : s.bus = .read st rest) (hr : rest ≠ []) (hn : rest.length ≤ n) :
    State.readBytes n s = { s with
      bus := .idle
      outputs := s.outputs ++ rest.dropLast.map (fun x => .readByte st x false) ++
        (rest.getLast?.map fun x => Output.readByte st x true).toList } := by
  induction n generalizing s rest with
  | zero => exact absurd (List.length_eq_zero_iff.1 (Nat.le_zero.1 hn)) hr
  | succ n ih =>
    match rest, hr, hn with
    | [x], _, _ => rw [State.readBytes]; simp [hb]
    | x :: y :: l, _, hn =>
      rw [State.readBytes]
      simp only [hb]
      rw [ih rfl (List.cons_ne_nil _ _) (by simpa using hn)]
      simp [List.getLast?_cons_cons]

/-- Outside a READ there is no byte to take (log entry 6). -/
theorem readBytes_outside (h : ∀ st rest, s.bus ≠ .read st rest) (n : Nat) : State.readBytes n s = s := by
  cases n with
  | zero => rfl
  | succ n =>
    rw [State.readBytes]
    split
    next hb => exact absurd hb (h _ _)
    next hb => exact absurd hb (h _ _)
    next hb => exact absurd hb (h _ _)
    · rfl

/-! ### The attention byte and the attention line (R154, R155, R180) -/

theorem attentionByte_getLsbD (s : State) (st : Station) (k : Nat) :
    (s.attentionByte st).getLsbD k = (s.attentionBits st).getLsbD k := by
  rw [State.attentionByte, BitVec.getLsbD_setWidth]
  by_cases hk : k < 8
  · simp [hk]
  · simp [hk, BitVec.getLsbD_of_ge (s.attentionBits st) k (by omega)]

theorem changedBit_iff : s.changedBit st = true ↔ ∃ i : CtxIx, (s.changed[st])[i] = true := by
  simp only [State.changedBit, List.any_eq_true, id_eq, exists_eq_right, List.mem_iff_getElem, Vector.length_toList,
    Vector.getElem_toList, Fin.getElem_fin]
  exact ⟨fun ⟨i, hi, h⟩ => ⟨⟨i, hi⟩, h⟩, fun ⟨i, h⟩ => ⟨i, i.isLt, h⟩⟩

theorem alerts_any_iff (a : Alerts) : a.any = true ↔ a ≠ ⟨false, false, false, false, false⟩ := by
  obtain ⟨o, l, m, a, d⟩ := a
  simp only [Alerts.any, ne_eq, Alerts.mk.injEq]
  revert o l m a d
  decide

theorem exists_common_bit {n : Nat} (v w : BitVec n) : (v &&& w != 0) = true ↔ ∃ k, v.getLsbD k = true ∧ w.getLsbD k = true := by
  rw [bne_iff_ne, ne_eq, ← not_forall_not, not_iff_not]
  refine ⟨fun h k hk => ?_, fun h => BitVec.eq_of_getLsbD_eq fun k _ => ?_⟩
  · have := congrArg (·.getLsbD k) h
    simp [hk] at this
  · simpa using h k

theorem attentionLine_iff (s : State) : s.attentionLine = true ↔
    ∃ (st : Station) (k : Nat), (s.attentionByte st).getLsbD k = true ∧ (s.masks[st]).getLsbD k = true := by
  simp only [State.attentionLine, List.any_eq_true, List.mem_finRange, true_and, exists_common_bit, attentionByte_getLsbD]

end Sys2Proof.Machine

open Sys2Proof Sys2Proof.Machine

/-- Settles O4: the bytes are stored one after another behind the first, in an opening event or a later one. -/
theorem writeFillsTheIntake : Obligations.WriteFillsTheIntake := by
  refine ⟨fun s b st x xs e h hi => ?_, fun s b st e h => ?_, fun s st x xs e hb hi => ?_, fun s st e _ => rfl,
    fun s st c x xs e hb hi hc => ?_, fun s b data e h => ?_,
    fun s data e => ⟨fun hb => congrArg _ (writeBytes_discarding hb data e),
      fun hd hw => congrArg _ (writeBytes_outside hd hw data e)⟩⟩
  · rw [exec_write_opening, startTransaction_write h]
    exact congrArg _ (writeBytes_empty (s := { s.endTransaction with bus := .write st }) rfl hi x xs e)
  · exact congrArg Host.Outcome.next (startTransaction_write h)
  · exact congrArg Host.Outcome.next (writeBytes_empty hb hi x xs e)
  · exact congrArg Host.Outcome.next (writeBytes_filling hb hi hc x xs e)
  · rw [exec_write_opening, startTransaction_discarded h, writeBytes_discarding rfl]

/-- Settles O6: the part's own end of a transaction, and the numbers that the address and source bytes carry. -/
theorem addressByteEndsTheTransaction : Obligations.AddressByteEndsTheTransaction := by
  refine ⟨fun s st c a hb hi => congrArg _ (endTransaction_of_filling hb hi),
    fun s a h => congrArg _ (endTransaction_of_none_filling h), fun s b h => ?_, fun _ _ => rfl,
    fun s => ⟨fun h => if_pos h, strapAddress_toNat⟩, fun a => ⟨addressTarget_toNat a, addressDirection_toNat a⟩,
    fun b => ⟨sourceStation_eq_none, fun _ => sourceStation_eq_some⟩⟩
  have hs : s.startTransaction b = s.endTransaction := startTransaction_other_target h
  have hidle : s.endTransaction.bus = .idle := BusConsistent.endTransaction_bus s
  refine ⟨congrArg _ hs, fun n => ?_, fun data e => ?_⟩
  · rw [exec_read_opening, hs, readBytes_outside (by simp [hidle])]; rfl
  · rw [exec_write_opening, hs, writeBytes_outside (by simp [hidle]) (by simp [hidle])]; rfl

/-- Settles O7: the transfer is the reply or NONE, and its bytes are taken one after another. -/
theorem readDeliversTheReply : Obligations.ReadDeliversTheReply := by
  refine ⟨fun s b st n reply h hreply hne => ?_,
    fun s st n rest hb hne => ⟨fun hn => congrArg _ (readBytes_of_lt hb hn), fun hn => congrArg _ (readBytes_of_le hb hne hn)⟩,
    fun s b n h => ?_, fun s n h => congrArg _ (readBytes_outside h n)⟩
  · have hs := startTransaction_read h
    rw [hreply] at hs
    refine ⟨fun hn => ?_, fun hn => ?_⟩
    · rw [exec_read_opening, hs, readBytes_of_lt rfl hn, endTransaction_outputs]
    · rw [exec_read_opening, hs, readBytes_of_le rfl hne hn, endTransaction_outputs]
  · rw [exec_read_opening, startTransaction_discarded h, readBytes_outside (by simp)]

/-- Settles O8: the four bits stand side by side in the byte, and the line is asserted by a bit that byte and mask share. -/
theorem pollDeliversTheAttentionByte : Obligations.PollDeliversTheAttentionByte := by
  refine ⟨fun s b st h => congrArg _ (startTransaction_poll h), fun s st => ?_, attentionLine_iff,
    fun s b h => congrArg _ (startTransaction_discarded h)⟩
  refine ⟨?_, ?_, ?_, ?_, fun k hk => (attentionByte_getLsbD s st k).trans (BitVec.getLsbD_of_ge _ k hk)⟩ <;>
    simp only [attentionByte_getLsbD, State.attentionBits, BitVec.getLsbD_append, BitVec.getLsbD_ofBool]
  · simp [State.replyBit, Option.isSome_iff_ne_none]
  · simpa using changedBit_iff
  · simp [State.lockedOut]
  · simp [State.alertBit, alerts_any_iff]

/-- Settles O9. -/
theorem busClearEmptiesIntakesAndHolders : Obligations.BusClearEmptiesIntakesAndHolders :=
  fun s => ⟨s.busClear, rfl, rfl, fun st => by simp [State.busClear], rfl⟩
end

section
/-! ## The row of the table that executes a command (R152, R161, R162, R180) -/

namespace Sys2Proof.Machine

/-! ### The rows -/

/-- What sets the rows of the commands apart: which commands the row takes, the length of their layout, and what they do. -/
structure CommandRow where
  ofRow : Command → Bool
  layout : List Byte → Bool
  body : Station → List Byte → State → Verdict

/-- The row of a command by its code and the number of its argument bytes (R180). -/
def CommandRow.ofCode (code : Byte) (n : Nat) (body : Station → List Byte → State → Verdict) : CommandRow :=
  ⟨hasCode code, argCount n, body⟩

/-- The row of an execution; events have none. `exec_of_row` ties it to the model. -/
def commandRow : Instr → Option CommandRow
  | .readNode => some (.ofCode 0x01 0 readNodeBody)
  | .readContext => some (.ofCode 0x02 5 readContextBody)
  | .nextChanged => some (.ofCode 0x03 0 nextChangedBody)
  | .readMap => some (.ofCode 0x04 5 readMapBody)
  | .readPoint => some (.ofCode 0x05 1 readPointBody)
  | .readLink => some (.ofCode 0x06 2 readLinkBody)
  | .setAttentionMask => some (.ofCode 0x07 1 setAttentionMaskBody)
  | .clearStation => some (.ofCode 0x08 0 clearStationBody)
  | .configureNode => some (.ofCode 0x10 2 (stationZero configureNodeBody))
  | .openNode => some (.ofCode 0x11 0 (stationZero openNodeBody))
  | .closeNode => some (.ofCode 0x12 0 (stationZero closeNodeBody))
  | .setTiming => some (.ofCode 0x13 29 (stationZero setTimingBody))
  | .setPoint => some (.ofCode 0x14 7 (stationZero setPointBody))
  | .setLockout => some (.ofCode 0x15 2 (stationZero setLockoutBody))
  | .linkControlEnable => some ⟨isEnable, argCount 2, stationZero linkEnableBody⟩
  | .linkControlDisable => some ⟨isDisable, argCount 2, stationZero linkDisableBody⟩
  | .barSlots => some (.ofCode 0x18 5 (stationZero (rangeBody Slot.bar)))
  | .unbarSlots => some (.ofCode 0x19 5 (stationZero (rangeBody Slot.unbar)))
  | .forceDark => some (.ofCode 0x1A 4 (stationZero forceDarkBody))
  | .rereferencePoint => some (.ofCode 0x1B 1 (stationZero rereferenceBody))
  | .adoptLightpath => some (.ofCode 0x1C 12 (stationZero adoptBody))
  | .beginLightpath => some ⟨hasCode 0x20, beginLayout, beginBody⟩
  | .startRamp => some (.ofCode 0x21 4 startRampBody)
  | .teardownLightpath => some (.ofCode 0x22 4 teardownBody)
  | .abortLightpath => some (.ofCode 0x23 4 abortBody)
  | .releaseContext => some (.ofCode 0x24 1 releaseBody)
  | .unknownCommand => some ⟨fun c => !commandCodes.contains c.first, fun _ => true, fun _ _ _ => .refused .unknownCommand⟩
  | _ => none

variable {i : Instr} {r : CommandRow} {c : Command}

theorem exec_of_row (h : commandRow i = some r) (s : State) : exec i s = runCommand r.ofRow r.layout r.body s := by
  cases i <;> cases h <;> rfl

/-! ### The codes (R158, R180) -/

theorem commandCodes_contains (code : Byte) : commandCodes.contains code = namesCommand code := by revert code; decide

theorem not_allowedWhenLocked {code : Byte} : 0x10 ≤ code.toNat → allowedWhenLocked code = false := by revert code; decide

theorem takesCommand_unknownCommand (c : Command) : takesCommand .unknownCommand c = !namesCommand c.first := by
  have h : ∀ code : Byte, takesCommand .unknownCommand ⟨code, [], false, false⟩ = !namesCommand code := by decide
  exact h c.first

/-- The statements' table of the rows' commands is the model's. -/
theorem takesCommand_eq (i : Instr) (c : Command) : takesCommand i c = (commandRow i).any fun r => r.ofRow c := by
  cases i
  case unknownCommand => rw [takesCommand_unknownCommand, ← commandCodes_contains]; rfl
  all_goals rfl

theorem row_of_takesCommand (h : takesCommand i c = true) : ∃ r, commandRow i = some r ∧ r.ofRow c = true := by
  rw [takesCommand_eq] at h
  exact (Option.any_eq_true _ _).1 h

theorem CommandRow.first_of_ofCode {code : Byte} {n : Nat} {body : Station → List Byte → State → Verdict}
    (h : (ofCode code n body).ofRow c = true) : c.first = code := by
  simpa [ofCode, hasCode] using h

/-! ### The layouts (R161, R180) -/

theorem argCount_eq_lengthFits {code : Byte} {args : List Byte} {n : Nat} (h : layoutLength code args = some (n + 1)) :
    argCount n args = lengthFits code args := by
  rw [lengthFits, h, argCount, Bool.eq_iff_iff, beq_iff_eq, beq_iff_eq, Option.some_inj]
  omega

theorem CommandRow.layout_of_ofCode {code : Byte} {n : Nat} {body : Station → List Byte → State → Verdict}
    (hl : ∀ args, layoutLength code args = some (n + 1)) (h : (ofCode code n body).ofRow c = true) :
    (ofCode code n body).layout c.rest = lengthFits c.first c.rest := by
  rw [first_of_ofCode h]
  exact argCount_eq_lengthFits (hl c.rest)

/-- The length of a BEGIN LIGHTPATH stands in its seventh byte, the route length (R180). -/
theorem beginLayout_eq (args : List Byte) : beginLayout args = lengthFits 0x20 args := by
  have hl : layoutLength 0x20 args = (args[5]?).map fun l => 13 + l.toNat := rfl
  rw [beginLayout, lengthFits, hl, byteAt, List.getD_eq_getElem?_getD]
  cases h : args[5]? with
  | none =>
    have := List.getElem?_eq_none_iff.1 h
    rw [decide_eq_false (by omega)]; rfl
  | some l =>
    rw [Option.map_some, Option.getD_some, Bool.eq_iff_iff, Bool.and_eq_true_iff, decide_eq_true_iff, beq_iff_eq, beq_iff_eq,
      Option.some_inj]
    omega

/-- A row's length check is the statements' (R161, R180). -/
theorem row_layout (h : commandRow i = some r) (hr : r.ofRow c = true) (hn : namesCommand c.first = true) :
    r.layout c.rest = lengthFits c.first c.rest := by
  have linkControl (hc : c.first == 0x16) : argCount 2 c.rest = lengthFits c.first c.rest := by
    rw [beq_iff_eq.1 hc]; exact argCount_eq_lengthFits rfl
  cases i <;> cases h
  case linkControlEnable => exact linkControl (Bool.and_eq_true_iff.1 hr).1
  case linkControlDisable => exact linkControl (Bool.and_eq_true_iff.1 hr).1
  case beginLightpath =>
    have hc : c.first = 0x20 := by simpa [hasCode] using hr
    rw [hc]; exact beginLayout_eq c.rest
  case unknownCommand => exact absurd ((commandCodes_contains c.first).trans hn) (by simpa using hr)
  all_goals exact CommandRow.layout_of_ofCode (fun _ => rfl) hr

/-! ### The commands of station 0 alone (R162) -/

/-- The codes 0x10 to 0x1C are those of station 0's commands (R162, R180). -/
theorem row_stationZero (h : commandRow i = some r) (hr : r.ofRow c = true) (hn : namesCommand c.first = true)
    (lo : 0x10 ≤ c.first.toNat) (hi : c.first.toNat ≤ 0x1C) : ∃ body, r.body = stationZero body := by
  cases i <;> cases h
  case readNode | readContext | nextChanged | readMap | readPoint | readLink | setAttentionMask | clearStation =>
    rw [CommandRow.first_of_ofCode hr] at lo; exact absurd lo (by decide)
  case beginLightpath | startRamp | teardownLightpath | abortLightpath | releaseContext =>
    rw [CommandRow.first_of_ofCode (n := 0) (body := beginBody) hr] at hi; exact absurd hi (by decide)
  case unknownCommand => exact absurd ((commandCodes_contains c.first).trans hn) (by simpa using hr)
  all_goals exact ⟨_, rfl⟩

/-! ### What no command touches (R149 to R152) -/

/-- Two states agree on the transaction, the intakes and the last-served station. -/
structure ServiceSame (s t : State) : Prop where
  bus : t.bus = s.bus
  intakes : t.intakes = s.intakes
  lastServed : t.lastServed = s.lastServed

theorem OutsideSame.service {s t : State} (h : OutsideSame s t) : ServiceSame s t := ⟨h.bus, h.intakes, h.lastServed⟩

namespace ServiceSame

theorem refl (s : State) : ServiceSame s s := ⟨rfl, rfl, rfl⟩

variable (s : State) (st : Station) (args : List Byte)

theorem nextChangedBody : (nextChangedBody st args s).Leaves (ServiceSame s) := by
  unfold Machine.nextChangedBody
  split
  · exact ⟨rfl, rfl, rfl⟩
  · exact refl s

theorem readLinkBody : (readLinkBody st args s).Leaves (ServiceSame s) := by
  unfold Machine.readLinkBody
  split
  · split_ifs
    · exact refl s
    · exact ⟨rfl, rfl, rfl⟩
    · trivial
  · trivial

theorem setAttentionMaskBody : (setAttentionMaskBody st args s).Leaves (ServiceSame s) := by
  unfold Machine.setAttentionMaskBody
  split
  · exact ⟨rfl, rfl, rfl⟩
  · trivial

theorem configureNodeBody : (configureNodeBody args s).Leaves (ServiceSame s) := by
  unfold Machine.configureNodeBody
  split_ifs
  · trivial
  · trivial
  · exact ⟨rfl, rfl, rfl⟩

theorem openNodeBody : (openNodeBody args s).Leaves (ServiceSame s) := by
  unfold Machine.openNodeBody
  split
  · trivial
  · exact ⟨rfl, rfl, rfl⟩

theorem setPointBody : (setPointBody args s).Leaves (ServiceSame s) := by
  unfold Machine.setPointBody; dsimp only
  split
  · trivial
  next p _ =>
    split_ifs
    · trivial
    · trivial
    · exact ((OutsideSame.modPoint s p _).trans (.attempt _ p)).service
    · exact (OutsideSame.modPoint s p _).service

theorem setLockoutBody : (setLockoutBody args s).Leaves (ServiceSame s) := by
  unfold Machine.setLockoutBody; dsimp only
  split
  · trivial
  · exact ⟨rfl, rfl, rfl⟩

theorem linkEnableBody : (linkEnableBody args s).Leaves (ServiceSame s) := by
  unfold Machine.linkEnableBody
  split
  · trivial
  · split_ifs
    · trivial
    · trivial
    · exact ⟨rfl, rfl, rfl⟩

theorem linkDisableBody : (linkDisableBody args s).Leaves (ServiceSame s) := by
  unfold Machine.linkDisableBody
  split
  · trivial
  · split
    · trivial
    · exact ⟨rfl, rfl, rfl⟩

theorem rangeBody (f : Slot → Slot) : (rangeBody f args s).Leaves (ServiceSame s) := by
  unfold Machine.rangeBody; dsimp only
  split
  · trivial
  · split
    · trivial
    · split
      · trivial
      · exact ⟨rfl, rfl, rfl⟩

theorem forceDarkBody : (forceDarkBody args s).Leaves (ServiceSame s) := by
  unfold Machine.forceDarkBody; dsimp only
  split
  · trivial
  next p _ =>
    split
    · trivial
    · split
      · trivial
      · split
        · trivial
        · exact ((OutsideSame.modPoint s p _).trans (.grant _ p)).service

theorem rereferenceBody : (rereferenceBody args s).Leaves (ServiceSame s) := by
  unfold Machine.rereferenceBody
  split
  · trivial
  · exact ⟨rfl, rfl, rfl⟩

theorem adoptBody : (adoptBody args s).Leaves (ServiceSame s) := by
  unfold Machine.adoptBody; dsimp only
  split
  · trivial
  · split
    · trivial
    · split
      · trivial
      · split
        · trivial
        · split
          · trivial
          · split
            · trivial
            · split
              · trivial
              · split
                · trivial
                · exact (((OutsideSame.writeRun s _ _ _).trans (.modPoint _ _ _)).trans (.create _ _ _ _)).service

theorem beginBody : (beginBody st args s).Leaves (ServiceSame s) := by
  unfold Machine.beginBody; dsimp only
  split
  · trivial
  · split
    · trivial
    · split
      · trivial
      · split
        · split
          · trivial
          · split
            · trivial
            · split
              · trivial
              · split
                · trivial
                · exact (((OutsideSame.writeRun s _ _ _).trans (.create _ _ _ _)).trans (.offer _ _ _ _)).service
        · trivial

theorem startRampBody : (startRampBody st args s).Leaves (ServiceSame s) := by
  unfold Machine.startRampBody
  split
  · trivial
  · split_ifs
    · trivial
    · exact (OutsideSame.joinLine s _ _).service
    · trivial

theorem teardownBody : (teardownBody st args s).Leaves (ServiceSame s) := by
  unfold Machine.teardownBody
  split
  · trivial
  · split_ifs
    · trivial
    · trivial
    · exact (OutsideSame.retireAtTail s _ _ _ _).service

theorem abortBody : (abortBody st args s).Leaves (ServiceSame s) := by
  unfold Machine.abortBody
  split
  · trivial
  · split_ifs
    · trivial
    · exact refl s
    · exact (OutsideSame.localAbort s _ _ _).service

theorem releaseBody : (releaseBody st args s).Leaves (ServiceSame s) := by
  unfold Machine.releaseBody
  split
  · trivial
  · split
    · trivial
    · split_ifs
      · trivial
      · trivial
      · exact ⟨rfl, rfl, rfl⟩

end ServiceSame

theorem row_service (h : commandRow i = some r) (st : Station) (args : List Byte) (s : State) :
    (r.body st args s).Leaves (ServiceSame s) := by
  cases i <;> cases h
  case readNode => exact ⟨rfl, rfl, rfl⟩
  case readContext => exact readContextBody_leaves (ServiceSame.refl s) st args
  case nextChanged => exact ServiceSame.nextChangedBody s st args
  case readMap => exact readMapBody_leaves (ServiceSame.refl s) st args
  case readPoint => exact readPointBody_leaves (ServiceSame.refl s) st args
  case readLink => exact ServiceSame.readLinkBody s st args
  case setAttentionMask => exact ServiceSame.setAttentionMaskBody s st args
  case clearStation => exact ⟨rfl, rfl, rfl⟩
  case configureNode => exact stationZero_leaves (ServiceSame.configureNodeBody s args)
  case openNode => exact stationZero_leaves (ServiceSame.openNodeBody s args)
  case closeNode => exact stationZero_leaves (body := closeNodeBody) ⟨rfl, rfl, rfl⟩
  case setTiming => exact stationZero_leaves (body := setTimingBody) ⟨rfl, rfl, rfl⟩
  case setPoint => exact stationZero_leaves (ServiceSame.setPointBody s args)
  case setLockout => exact stationZero_leaves (ServiceSame.setLockoutBody s args)
  case linkControlEnable => exact stationZero_leaves (ServiceSame.linkEnableBody s args)
  case linkControlDisable => exact stationZero_leaves (ServiceSame.linkDisableBody s args)
  case barSlots => exact stationZero_leaves (ServiceSame.rangeBody s args Slot.bar)
  case unbarSlots => exact stationZero_leaves (ServiceSame.rangeBody s args Slot.unbar)
  case forceDark => exact stationZero_leaves (ServiceSame.forceDarkBody s args)
  case rereferencePoint => exact stationZero_leaves (ServiceSame.rereferenceBody s args)
  case adoptLightpath => exact stationZero_leaves (ServiceSame.adoptBody s args)
  case beginLightpath => exact ServiceSame.beginBody s st args
  case startRamp => exact ServiceSame.startRampBody s st args
  case teardownLightpath => exact ServiceSame.teardownBody s st args
  case abortLightpath => exact ServiceSame.abortBody s st args
  case releaseContext => exact ServiceSame.releaseBody s st args
  case unknownCommand => trivial

end Sys2Proof.Machine
end

section
/-! ## Executions of a served command, and the order of service (R151, R152, R161, R162) -/

namespace Sys2Proof.Machine

variable {i : Instr} {r : CommandRow} {s : State} {st : Station} {c : Command}

/-! ### The answer of a row (R161) -/

theorem exec_of_check_failed (h : commandRow i = some r) (hs : s.served = some (st, c)) (hr : r.ofRow c = true)
    {x : ReplyCause} (hx : (s.taken st).generalCheck st c r.layout = some x) :
    exec i s = .next ((s.taken st).refusing st c.first x.code x.detail) := by
  rw [exec_of_row h]
  simp only [runCommand, hs, hr, if_true, State.execute, takeIntake_eq_taken, hx]
  rfl

theorem exec_of_check_passed (h : commandRow i = some r) (hs : s.served = some (st, c)) (hr : r.ofRow c = true)
    (hx : (s.taken st).generalCheck st c r.layout = none) :
    exec i s = .next ((s.taken st).answer st c.first (r.body st c.rest (s.taken st))) := by
  rw [exec_of_row h]
  simp only [runCommand, hs, hr, if_true, State.execute, takeIntake_eq_taken, hx]

/-- Whatever the row, an execution takes the intake and answers, and its verdict leaves the SBI's service as the taking left it (R152). -/
theorem exec_answers (hs : s.served = some (st, c)) (h : takesCommand i c = true) :
    ∃ v : Verdict, exec i s = .next ((s.taken st).answer st c.first v) ∧ v.Leaves (ServiceSame (s.taken st)) := by
  obtain ⟨r, hrow, hr⟩ := row_of_takesCommand h
  cases hx : (s.taken st).generalCheck st c r.layout with
  | some x => exact ⟨.refused x, exec_of_check_failed hrow hs hr hx, trivial⟩
  | none => exact ⟨_, exec_of_check_passed hrow hs hr hx, row_service hrow st c.rest _⟩

theorem answer_service {code : Byte} {v : Verdict} (h : v.Leaves (ServiceSame s)) : ServiceSame s (s.answer st code v) := by
  cases v with
  | accepted t data => exact ⟨h.bus, h.intakes, h.lastServed⟩
  | refused x => exact ⟨rfl, rfl, rfl⟩

theorem answer_holder (code : Byte) (v : Verdict) : (s.answer st code v).holders[st] ≠ none := by
  cases v <;> simp [State.answer, State.setHolder]

/-- An execution leaves the service as the taking of the intake does, and a reply in the issuer's holder (R152). -/
theorem exec_service (hs : s.served = some (st, c)) (h : takesCommand i c = true) :
    ∃ t, exec i s = .next t ∧ ServiceSame (s.taken st) t ∧ t.holders[st] ≠ none := by
  obtain ⟨v, hx, hv⟩ := exec_answers hs h
  exact ⟨_, hx, answer_service hv, answer_holder _ v⟩

theorem taken_intakes_ne {x : Station} (h : x ≠ st) : (s.taken st).intakes[x] = s.intakes[x] := put_get_ne _ _ h.symm

/-! ### The general checks, in their order (R161) -/

section
variable (layout : List Byte → Bool)

theorem generalCheck_damaged (h : c.overlength = true ∨ c.truncated = true) :
    s.generalCheck st c layout = some .malformed := if_pos (by simpa using h)

variable (ho : c.overlength = false) (ht : c.truncated = false)
include ho ht

theorem generalCheck_unknown (hn : namesCommand c.first = false) : s.generalCheck st c layout = some .unknownCommand := by
  simp only [State.generalCheck, ho, ht, commandCodes_contains, hn]; rfl

theorem generalCheck_length (hn : namesCommand c.first = true) (hl : layout c.rest = false) :
    s.generalCheck st c layout = some .malformed := by
  simp only [State.generalCheck, ho, ht, commandCodes_contains, hn, hl]; rfl

theorem generalCheck_locked (hn : namesCommand c.first = true) (hl : layout c.rest = true) (hst : st ≠ 0)
    (hk : s.lockout[st] = true) (hc : 0x10 ≤ c.first.toNat) : s.generalCheck st c layout = some .locked := by
  have hlocked : s.lockedOut st = true := by simpa [State.lockedOut, hst] using hk
  simp only [State.generalCheck, ho, ht, commandCodes_contains, hn, hl, hlocked, not_allowedWhenLocked hc]; rfl

end

/-- Only a byte that names a command has a layout (R180). -/
theorem namesCommand_of_lengthFits {code : Byte} {args : List Byte} (h : lengthFits code args = true) :
    namesCommand code = true := by
  have hsome : (layoutLength code args).isSome = true := by rw [beq_iff_eq.1 h]; rfl
  unfold namesCommand
  unfold layoutLength at hsome ⊢
  generalize code.toNat = n at hsome ⊢
  split at hsome
  rotate_right
  · cases hsome
  all_goals rfl

/-! ### The order of service (R152) -/

/-- How many stations come before a station in the order of service: 0 for the one after the last-served. -/
def servicePlace (last st : Station) : Nat := (st.val + 8 - last.val) % 9

theorem servicePlace_add (last k : Station) : servicePlace last (last + 1 + k) = k.val := by
  simp only [servicePlace, Fin.val_add, Fin.val_one]; omega

theorem exists_eq_add (last st : Station) : ∃ k : Station, st = last + 1 + k := ⟨st - (last + 1), by abel⟩

/-- A FULL intake offers its command to the round-robin (R152). -/
def State.offered (s : State) (st : Station) : Option (Station × Command) :=
  match s.intakes[st] with
  | .full c => some (st, c)
  | .empty => none
  | .filling _ => none

theorem offered_eq_some {x : Station} : s.offered x = some (st, c) ↔ x = st ∧ s.intakes[st] = .full c := by
  unfold State.offered
  split
  next d hd =>
    rw [Option.some_inj, Prod.mk.injEq]
    constructor
    · rintro ⟨rfl, rfl⟩; exact ⟨rfl, hd⟩
    · rintro ⟨rfl, h⟩; exact ⟨rfl, Intake.full.inj (hd.symm.trans h)⟩
  next hd => simp only [reduceCtorEq, false_iff]; rintro ⟨rfl, h⟩; simp [hd] at h
  next d hd => simp only [reduceCtorEq, false_iff]; rintro ⟨rfl, h⟩; simp [hd] at h

theorem offered_eq_none : s.offered st = none ↔ ∀ e, s.intakes[st] ≠ .full e := by
  unfold State.offered
  split <;> simp_all

theorem served_eq_findSome? (s : State) : s.served = Fin.findSome? fun k : Station => s.offered (s.lastServed + 1 + k) := by
  rw [Fin.findSome?_eq_findSome?_finRange, State.served, serviceOrder, List.findSome?_map]; rfl

/-- The served command is that of the first FULL intake in the order of service (R152). -/
theorem served_iff : s.served = some (st, c) ↔ s.intakes[st] = .full c ∧
    ∀ x : Station, servicePlace s.lastServed x < servicePlace s.lastServed st → ∀ e, s.intakes[x] ≠ .full e := by
  rw [served_eq_findSome?, Fin.findSome?_eq_some_iff]
  constructor
  · rintro ⟨k, hk, before⟩
    obtain ⟨rfl, hfull⟩ := offered_eq_some.1 hk
    refine ⟨hfull, fun x hx => ?_⟩
    obtain ⟨j, rfl⟩ := exists_eq_add s.lastServed x
    rw [servicePlace_add, servicePlace_add] at hx
    exact offered_eq_none.1 (before j hx)
  · rintro ⟨hfull, before⟩
    obtain ⟨k, rfl⟩ := exists_eq_add s.lastServed st
    refine ⟨k, offered_eq_some.2 ⟨rfl, hfull⟩, fun j hj => offered_eq_none.2 (before _ ?_)⟩
    rw [servicePlace_add, servicePlace_add]
    exact hj

end Sys2Proof.Machine

open Sys2Proof Sys2Proof.Machine

/-- Settles O10: the order of service as a search over places in it, and what every answer leaves of the SBI. -/
theorem roundRobinServesTheFirstFullIntake : Obligations.RoundRobinServesTheFirstFullIntake := by
  refine ⟨fun s st c => served_iff, fun i s st c hs h => ?_⟩
  obtain ⟨t, hx, ⟨hbus, hintakes, hlast⟩, hholder⟩ := exec_service hs h
  refine ⟨t, hx, hlast, hholder, fun hheld => ?_, fun x hne => ?_⟩
  · rw [hbus, hintakes, taken_of_not_held hheld]
    exact ⟨rfl, rfl⟩
  · rw [hintakes, taken_intakes_ne hne]

/-- Settles O5: the hold in an opening event and in a later one, and the storing with the taking of the intake. -/
theorem fullIntakeHoldsOffAWrite : Obligations.FullIntakeHoldsOffAWrite := by
  refine ⟨fun s b st c x xs e h hi => ?_, fun s st c x xs e hb hi => congrArg _ (writeBytes_full hb hi x xs e),
    fun i s st c x e hs h hb => ?_, fun s st x e => taken_of_held, fun s st => taken_of_not_held⟩
  · rw [exec_write_opening, startTransaction_write h]
    exact congrArg _ (writeBytes_full (s := { s.endTransaction with bus := .write st }) rfl hi x xs e)
  · obtain ⟨t, hx, ⟨hbus, hintakes, -⟩, -⟩ := exec_service hs h
    rw [taken_of_held hb] at hbus hintakes
    exact ⟨t, hx, hintakes, hbus⟩

/-- Settles O11: an answer other than ACCEPTED is a refusal, which keeps the state that the taking left. -/
theorem refusedCommandChangesOnlyTheHolder : Obligations.RefusedCommandChangesOnlyTheHolder := by
  intro i s t st c hs h hx hreply
  obtain ⟨v, hv, -⟩ := exec_answers hs h
  rw [hv] at hx
  cases hx
  cases v with
  | accepted u data => exact absurd (put_get_self u.holders st _) (hreply (c.first :: data))
  | refused x => exact ⟨refusalReply c.first x, rfl⟩

/-- Settles O12: each general check in its order, then the body of a command of station 0 alone. -/
theorem generalChecksRefuseInOrder : Obligations.GeneralChecksRefuseInOrder := by
  refine ⟨fun i s st c hs h => ?_, fun s st code args h hn => ?_, fun i s st code args h hst lo hi hl ht => ?_⟩
  · obtain ⟨r, hrow, hr⟩ := row_of_takesCommand h
    have hlayout := row_layout hrow hr
    exact ⟨fun hd => exec_of_check_failed hrow hs hr (generalCheck_damaged _ hd),
      fun ho ht hn => exec_of_check_failed hrow hs hr (generalCheck_unknown _ ho ht hn),
      fun ho ht hn hl => exec_of_check_failed hrow hs hr (generalCheck_length _ ho ht hn ((hlayout hn).trans hl)),
      fun ho ht hn hl hst hk hc =>
        exec_of_check_failed hrow hs hr (generalCheck_locked _ ho ht hn ((hlayout hn).trans hl) hst hk hc)⟩
  · have htakes : takesCommand .unknownCommand ⟨code, args, false, false⟩ = true := by
      rw [takesCommand_unknownCommand, hn]; rfl
    obtain ⟨r, hrow, hr⟩ := row_of_takesCommand htakes
    exact exec_of_check_failed hrow h.served hr (generalCheck_unknown _ rfl rfl hn)
  · obtain ⟨r, hrow, hr⟩ := row_of_takesCommand ht
    have hn := namesCommand_of_lengthFits hl
    obtain ⟨body, hbody⟩ := row_stationZero hrow hr hn lo hi
    rw [exec_of_row hrow]
    refine runCommand_refused h hr ((commandCodes_contains code).trans hn) ((row_layout hrow hr hn).trans hl)
      (r := .notPermitted) ?_
    rw [hbody, stationZero, if_neg hst]
end

section
/-! ## NEXT CHANGED, SET ATTENTION MASK and CLEAR STATION (R157, R174, R177) -/

namespace Sys2Proof.Machine

variable {s : State} {st : Station}

theorem lowestChanged_eq_some {i : CtxIx} (h : (s.changed[st])[i] = true)
    (before : ∀ j : CtxIx, j < i → (s.changed[st])[j] = false) : s.lowestChanged st = some i := by
  rw [State.lowestChanged, ← Fin.find?_eq_find?_finRange, Fin.find?_eq_some_iff]
  exact ⟨h, before⟩

theorem lowestChanged_eq_none (h : ∀ i : CtxIx, (s.changed[st])[i] = false) : s.lowestChanged st = none := by
  rw [State.lowestChanged, ← Fin.find?_eq_find?_finRange, Fin.find?_eq_none_iff]
  exact h

theorem nextChangedBody_some {i : CtxIx} (h : s.lowestChanged st = some i) (args : List Byte) :
    nextChangedBody st args s =
      .accepted { s with changed := put s.changed st (put s.changed[st] i false) } (s.contextBlock i) := by
  simp only [nextChangedBody, h]

theorem nextChangedBody_none (h : s.lowestChanged st = none) (args : List Byte) :
    nextChangedBody st args s = .accepted s [0xFF] := by
  simp only [nextChangedBody, h]

theorem setAttentionMaskBody_eq (s : State) (st : Station) (m : Byte) : setAttentionMaskBody st [m] s =
    if m.toNat < 16 then .accepted { s with masks := put s.masks st (m.setWidth 4) } [] else .refused .badArgument := rfl

/-- An emptied changed set beside the others (R157). -/
theorem changed_emptied (s : State) (st x : Station) (i : CtxIx) :
    (put s.changed st (Vector.replicate 48 false))[x][i] = if x = st then false else (s.changed[x])[i] := by
  simp only [Fin.getElem_fin, put_get, eq_comm (a := x)]
  split <;> simp

end Sys2Proof.Machine

open Sys2Proof Sys2Proof.Machine

/-- Settles O17: the lowest index is the first that a search finds, and each body writes the one set, mask or holder. -/
theorem stationCommandsActOnTheStation : Obligations.StationCommandsActOnTheStation := by
  refine ⟨fun s st h => ⟨fun i hi before => ?_, fun hnone => ?_⟩, fun s st m h => ?_, fun s st h => ?_⟩
  · have hlow : (s.taken st).lowestChanged st = some i := lowestChanged_eq_some hi before
    exact runCommand_accepted h rfl rfl rfl (nextChangedBody_some hlow [])
  · have hlow : (s.taken st).lowestChanged st = none := lowestChanged_eq_none hnone
    exact runCommand_accepted h rfl rfl rfl (nextChangedBody_none hlow [])
  · have hx : exec .setAttentionMask s = .next ((s.taken st).answer st 0x07 (setAttentionMaskBody st [m] (s.taken st))) :=
      runCommand_executes h _ _ _ rfl rfl rfl
    rw [hx, setAttentionMaskBody_eq]
    split <;> rfl
  · exact ⟨_, runCommand_accepted h rfl rfl rfl rfl, put_put _ _ _ _, fun x i => changed_emptied (s.taken st) st x i, rfl⟩
end

section
/-! ## CONFIGURE NODE, OPEN NODE, CLOSE NODE and SET LOCKOUT (R163, R164, R167) -/

namespace Sys2Proof.Machine

variable {s : State} {v : Word16}

/-! ### The live count (R23, R175) -/

/-- No context is live exactly where every record is ENDED. -/
theorem State.liveCount_eq_zero_iff : s.liveCount = 0 ↔ ∀ i, ∀ c ∈ s.context i, c.state = .ended := by
  rw [State.liveCount_eq, List.countP_eq_zero]
  refine ⟨fun h i c hc => ?_, fun h i _ hlive => ?_⟩
  · by_contra hlive
    exact h i (List.mem_finRange i) ((Option.any_eq_true _ _).2 ⟨c, hc, bne_iff_ne.2 hlive⟩)
  · obtain ⟨c, hc, hstate⟩ := (Option.any_eq_true _ _).1 hlive
    exact bne_iff_ne.1 hstate (h i c hc)

/-! ### The bodies, by their checks -/

/-- The checks of CONFIGURE NODE: the node ID's value, then the live count (R163). -/
theorem configureNodeBody_eq (v : Word16) (s : State) : configureNodeBody (bytes16 v) s =
    if v = 0 then .refused .badArgument else if s.liveCount ≠ 0 then .refused .wrongState
    else .accepted { s with nodeId := v } [] := by
  rw [configureNodeBody, show word16At (bytes16 v) 0 = v from word16_bytes16 v]

theorem openNodeBody_unconfigured (h : s.nodeId = 0) : openNodeBody [] s = .refused .wrongState := if_pos h

theorem openNodeBody_configured (h : s.nodeId ≠ 0) : openNodeBody [] s = .accepted { s with nodeOpen := true } [] := if_neg h

/-- The check of SET LOCKOUT: bit 0 and the bits above 8 name no station that may be locked out (R148, R167). -/
theorem setLockoutBody_eq (v : Word16) (s : State) : setLockoutBody (bytes16 v) s =
    if v.getLsbD 0 ∨ 512 ≤ v.toNat then .refused .badArgument
    else .accepted { s with lockout := Vector.ofFn fun st : Station => v.getLsbD st.val } [] := by
  rw [setLockoutBody, show word16At (bytes16 v) 0 = v from word16_bytes16 v]

/-! ### The executions -/

theorem configureNode_badArgument (h : Executes s 0 0x10 (bytes16 v)) (hv : v = 0) :
    exec .configureNode s = .next ((s.taken 0).refusing 0 0x10 0x05 []) :=
  runCommand_refused h rfl rfl rfl ((stationZero_zero _ _ _).trans ((configureNodeBody_eq v _).trans (if_pos hv)))

theorem configureNode_wrongState (h : Executes s 0 0x10 (bytes16 v)) (hv : v ≠ 0) (hlive : s.liveCount ≠ 0) :
    exec .configureNode s = .next ((s.taken 0).refusing 0 0x10 0x0A []) :=
  runCommand_refused h rfl rfl rfl
    ((stationZero_zero _ _ _).trans ((configureNodeBody_eq v _).trans ((if_neg hv).trans (if_pos hlive))))

theorem configureNode_accepted (h : Executes s 0 0x10 (bytes16 v)) (hv : v ≠ 0) (hnone : s.liveCount = 0) :
    exec .configureNode s = .next ({ s.taken 0 with nodeId := v }.accepting 0 0x10 []) :=
  runCommand_accepted h rfl rfl rfl
    ((stationZero_zero _ _ _).trans ((configureNodeBody_eq v _).trans ((if_neg hv).trans (if_neg (not_not_intro hnone)))))

/-- OPEN NODE is refused on a node without a node ID (R164). -/
theorem exec_openNode (h : Executes s 0 0x11 []) : exec .openNode s = .next (if s.nodeId = 0
    then (s.taken 0).refusing 0 0x11 0x0A [] else { s.taken 0 with nodeOpen := true }.accepting 0 0x11 []) := by
  split
  case isTrue hid => exact runCommand_refused h rfl rfl rfl ((stationZero_zero _ _ _).trans (openNodeBody_unconfigured hid))
  case isFalse hid => exact runCommand_accepted h rfl rfl rfl ((stationZero_zero _ _ _).trans (openNodeBody_configured hid))

theorem exec_closeNode (h : Executes s 0 0x12 []) :
    exec .closeNode s = .next ({ s.taken 0 with nodeOpen := false }.accepting 0 0x12 []) :=
  runCommand_accepted h rfl rfl rfl (stationZero_zero closeNodeBody _ _)

theorem setLockout_badArgument (h : Executes s 0 0x15 (bytes16 v)) (hbad : v.getLsbD 0 = true ∨ 512 ≤ v.toNat) :
    exec .setLockout s = .next ((s.taken 0).refusing 0 0x15 0x05 []) :=
  runCommand_refused h rfl rfl rfl ((stationZero_zero _ _ _).trans ((setLockoutBody_eq v _).trans (if_pos hbad)))

theorem setLockout_accepted (h : Executes s 0 0x15 (bytes16 v)) (hgood : ¬(v.getLsbD 0 = true ∨ 512 ≤ v.toNat)) :
    exec .setLockout s = .next
      ({ s.taken 0 with lockout := Vector.ofFn fun st : Station => v.getLsbD st.val }.accepting 0 0x15 []) :=
  runCommand_accepted h rfl rfl rfl ((stationZero_zero _ _ _).trans ((setLockoutBody_eq v _).trans (if_neg hgood)))

end Sys2Proof.Machine

open Sys2Proof Sys2Proof.Machine

/-- Settles O18: each command by its checks, with the live count read as the records that are not ENDED. -/
theorem nodeCommandsConfigureTheNode : Obligations.NodeCommandsConfigureTheNode := by
  refine fun s => ⟨fun v h => ⟨configureNode_badArgument h, fun hv ⟨i, c, hc, hlive⟩ => ?_, fun hv hended => ?_⟩,
    exec_openNode, exec_closeNode, fun v h => ⟨setLockout_badArgument h, fun hzero hbound => ?_⟩⟩
  · exact configureNode_wrongState h hv fun hnone => hlive (State.liveCount_eq_zero_iff.1 hnone i c hc)
  · exact configureNode_accepted h hv (State.liveCount_eq_zero_iff.2 hended)
  · have hgood : ¬(v.getLsbD 0 = true ∨ 512 ≤ v.toNat) := by
      rintro (hset | hlarge)
      · exact Bool.false_ne_true (hzero.symm.trans hset)
      · exact absurd hlarge (by omega)
    exact ⟨_, setLockout_accepted h hgood, fun st => Vector.getElem_ofFn st.isLt, rfl⟩
end

section
/-! ## The command at the front of the queue (log entries 13 and 15) -/

namespace Sys2Proof.Machine

/-- With a command waiting, a step is that command's execution; the millisecond of an empty queue does not arise. -/
theorem step_of_pending_cons {c : Instr} {rest : List Instr} {s : State} (h : s.pending = c :: rest) :
    step s = exec c { s with pending := rest } := by
  rw [step, h]

end Sys2Proof.Machine

open Sys2Proof Sys2Proof.Machine

/-- Settles O1: the second update of the queue overwrites the first, so what runs is the state with the rest of the queue. -/
theorem stepRunsTheFrontCommand : Obligations.StepRunsTheFrontCommand :=
  fun _ _ _ => step_of_pending_cons rfl
end
